-- ==== Sys2Proof/Word.lean ====
section
/-! DEFINITION. The word types of ERF-CRB: what the spec treats as bits (00_scope.md R9, R10, R12). -/

namespace Sys2Proof

/-- A command word, and the width of the read port (R9, R90). -/
abbrev Word := BitVec 32

/-- A CRC register, a polynomial, a seed, an arena address (R9, R45). -/
abbrev Half := BitVec 16

/-- One arena byte, one validity flag, one packet byte (R26, R27). -/
abbrev Byte := BitVec 8

end Sys2Proof
end

