-- ==== Sys2Proof/Config.lean ====
section
/-! DEFINITION. The implementation parameters of 00_scope.md R8 that the spec leaves open, and the free values of R13. The
values the spec gives its parameters are in Sys2Proof/Machine/Parameters.lean. -/

namespace Sys2Proof

/-- The build option of R3: the two historical signal layouts. -/
inductive Variant where
  | a
  | b
  deriving DecidableEq, Repr

/-- One packet bit position `pkt[byte][bit]` (R11, R210). -/
structure BitPos where
  byte : Fin 15
  bit : Fin 8
  deriving DecidableEq, Repr

/-- A field descriptor of R210: its source list, output bit 0 first; its width is the list's length. -/
abbrev FieldDesc := List BitPos

/-- The parameters of R8 that a build fixes and that the spec leaves to the model as arguments: `VARIANT`, `SYNC_B`
(OPEN, D28) and `FIELD_TABLE` (OPEN, D29). They are constant through a run (R54). -/
structure Config where
  variant : Variant
  syncB : Byte
  fieldTable : List FieldDesc
  deriving DecidableEq, Repr

/-- The read-port spaces and the command port, as the platform places them (R60, R77). -/
inductive PortSpace where
  | register
  | validity
  | arena
  | command
  deriving DecidableEq, Repr

/-- `BASE_ADDRESSES` (R8, R77): OPEN, left to the platform, so a constant of which nothing is known (log entry 7). -/
opaque Config.baseAddresses : PortSpace → Nat

/-- `draw(n)` of R13: the `k`-th draw of a run, any n-bit value under no law. No body: nothing can be proved of its value.
The state's counter `draws` gives each use an index of its own, so that it is chosen afresh (log entry 5). -/
opaque Config.draw (n k : Nat) : BitVec n

end Sys2Proof
end

