-- ==== Sys2Proof/Syntax.lean ====
section
/-! DEFINITION. The command set: one constructor per row of spec/opcode_table.json (30_encoding.md R94), and the assembler
lines of R99 and R100 as terms. -/

namespace Sys2Proof

/-- The commands of R94. Every operand is an unsigned field of its own width, taken as it stands (R93). -/
inductive Instr where
  | nop
  | cfg (n : BitVec 12) (p : BitVec 8)
  | start
  | stop
  | acquire
  | release
  | crcBuild (poly : Half)
  | crcSeed (seed : Half)
  | crcCompute (addr : Half) (len : BitVec 11)
  | crcComputeInv (addr : Half) (len : BitVec 11)
  | decode
  | vreset
  deriving DecidableEq, Repr

/-- One assembler line (R99) or pseudo-instruction (R100), its operands the numbers written: they may fail to fit. -/
inductive Asm where
  | nop
  | cfg (n p : Nat)
  | start
  | stop
  | acquire
  | release
  | crcBuild (poly : Nat)
  | crcSeed (seed : Nat)
  | crcCompute (addr len : Nat)
  | crcComputeInv (addr len : Nat)
  | decode
  | vreset
  | cycle
  | stateEnter
  | crcSetup (poly seed : Nat)
  | crcPkt (base : Nat)
  deriving DecidableEq, Repr

end Sys2Proof
end

