-- ==== Sys2Proof/WellFormed.lean ====
section
/-! DEFINITION. The checks the spec makes on what is written down: assembler operands that fit their fields (30_encoding.md
R99) and field tables as R210 describes them (43_unpack_validate.md). An `Instr` needs no check: each operand has its field's
width in its type. -/

namespace Sys2Proof

/-- R99: an operand that does not fit its field is an assembly error. `CRC.PKT base` (R100) writes `base + 14` as its ADDR. -/
def Asm.wellFormed : Asm → Bool
  | .cfg n p => n ≤ 4095 && p ≤ 255
  | .crcBuild poly => poly ≤ 0xFFFF
  | .crcSeed seed => seed ≤ 0xFFFF
  | .crcCompute addr len => addr ≤ 0xFFFF && len ≤ 2047
  | .crcComputeInv addr len => addr ≤ 0xFFFF && len ≤ 2047
  | .crcSetup poly seed => poly ≤ 0xFFFF && seed ≤ 0xFFFF
  | .crcPkt base => base + 14 ≤ 0xFFFF
  | .nop | .start | .stop | .acquire | .release | .decode | .vreset | .cycle | .stateEnter => true

/-- R210: a source position lies in the field region, bytes 4 to 9, or byte 3 with bit 2 or above. -/
def BitPos.inRegion (q : BitPos) : Bool :=
  (4 ≤ q.byte.val && q.byte.val ≤ 9) || (q.byte.val == 3 && 2 ≤ q.bit.val)

/-- R210: a descriptor has a width from 1 to 32 and sources of the field region only. -/
def FieldDesc.wellFormed (d : FieldDesc) : Bool :=
  1 ≤ d.length && d.length ≤ 32 && d.all BitPos.inRegion

/-- R210: a `FIELD_TABLE` has at most 38 descriptors, each well formed. -/
def Config.wellFormed (c : Config) : Bool :=
  c.fieldTable.length ≤ 38 && c.fieldTable.all FieldDesc.wellFormed

end Sys2Proof
end

