-- ==== Sys2Proof/Decode.lean ====
section
/-! DEFINITION. Decoding of command words, total on every 32-bit word (30_encoding.md R98), the encoder written from the same
tables (R92, R93), the opcode table as data (R94), and the assembler of R99 and R100. -/

namespace Sys2Proof

/-- The two decode faults of R98, by name. -/
inductive DecodeError where
  /-- Opcodes 0xB to 0xF (R95). -/
  | illegalOpcode
  /-- A "must be 0" field that is not 0 (R96). -/
  | reservedBits
  deriving DecidableEq, Repr

/-- `w[31:28]` (R91). -/
def opcodeField (w : Word) : BitVec 4 := w.extractLsb' 28 4

/-- `IMM16` and `ADDR` (R93). -/
def imm16Field (w : Word) : Half := w.extractLsb' 0 16

/-- `NSLOT` (R93). -/
def nslotField (w : Word) : BitVec 12 := w.extractLsb' 16 12

/-- `PSIZE` (R93). -/
def psizeField (w : Word) : BitVec 8 := w.extractLsb' 0 8

/-- `INV` (R93). -/
def invField (w : Word) : Bool := w.getLsbD 27

/-- `LEN` (R93). -/
def lenField (w : Word) : BitVec 11 := w.extractLsb' 16 11

/-- Format Z: the command, if `w[27:0]` is 0 (R92, R96). -/
def decodeZ (w : Word) (i : Instr) : Except DecodeError Instr :=
  if w.extractLsb' 0 28 = 0 then .ok i else .error .reservedBits

/-- Format K: the command of IMM16, if `w[27:16]` is 0 (R92, R96). -/
def decodeK (w : Word) (f : Half → Instr) : Except DecodeError Instr :=
  if w.extractLsb' 16 12 = 0 then .ok (f (imm16Field w)) else .error .reservedBits

/-- Format F: CFG, if `w[15:8]` is 0 (R92, R96). -/
def decodeF (w : Word) : Except DecodeError Instr :=
  if w.extractLsb' 8 8 = 0 then .ok (.cfg (nslotField w) (psizeField w)) else .error .reservedBits

/-- Format C: no reserved bits; INV selects the traversal (R92, R96). -/
def decodeC (w : Word) : Except DecodeError Instr :=
  if invField w then .ok (.crcComputeInv (imm16Field w) (lenField w))
  else .ok (.crcCompute (imm16Field w) (lenField w))

/-- `Decode(w)` of R98, over the opcode map of R94. -/
def decodeWord (w : Word) : Except DecodeError Instr :=
  match (opcodeField w).toNat with
  | 0x0 => decodeZ w .nop
  | 0x1 => decodeF w
  | 0x2 => decodeZ w .start
  | 0x3 => decodeZ w .stop
  | 0x4 => decodeZ w .acquire
  | 0x5 => decodeZ w .release
  | 0x6 => decodeK w .crcBuild
  | 0x7 => decodeK w .crcSeed
  | 0x8 => decodeC w
  | 0x9 => decodeZ w .decode
  | 0xA => decodeZ w .vreset
  | _ => .error .illegalOpcode

/-- The command word of which the opcode table gives the low `nbits` bits: zeros above (R90). -/
def tableWord (nbits w : Nat) : Word := BitVec.ofNat 32 (w % 2 ^ nbits)

/-- The decoder on a row of the opcode table. -/
def decodeTableWord (nbits w : Nat) : Option Instr :=
  match decodeWord (tableWord nbits w) with
  | .ok i => some i
  | .error _ => none

/-- A field of R92 at its place: the value, zero-extended, its lowest bit at bit `lo`. -/
def placed {n : Nat} (v : BitVec n) (lo : Nat) : Word := v.zeroExtend 32 <<< lo

/-- Format Z of R92: the opcode, and 28 zeros below it. -/
def encodeZ (op : BitVec 4) : Word := placed op 28

/-- Format K of R92. -/
def encodeK (op : BitVec 4) (imm : Half) : Word := placed op 28 ||| placed imm 0

/-- Format F of R92. -/
def encodeF (op : BitVec 4) (n : BitVec 12) (p : BitVec 8) : Word := placed op 28 ||| placed n 16 ||| placed p 0

/-- Format C of R92. -/
def encodeC (op : BitVec 4) (inv : Bool) (len : BitVec 11) (addr : Half) : Word :=
  placed op 28 ||| placed (BitVec.ofBool inv) 27 ||| placed len 16 ||| placed addr 0

/-- The command word of an instruction (R92, R94). -/
def encode : Instr → Word
  | .nop => encodeZ 0x0
  | .cfg n p => encodeF 0x1 n p
  | .start => encodeZ 0x2
  | .stop => encodeZ 0x3
  | .acquire => encodeZ 0x4
  | .release => encodeZ 0x5
  | .crcBuild poly => encodeK 0x6 poly
  | .crcSeed seed => encodeK 0x7 seed
  | .crcCompute addr len => encodeC 0x8 false len addr
  | .crcComputeInv addr len => encodeC 0x8 true len addr
  | .decode => encodeZ 0x9
  | .vreset => encodeZ 0xA

/-- One row of spec/opcode_table.json. -/
structure OpcodeRow where
  mnemonic : String
  pattern : Word
  mask : Word
  deriving DecidableEq, Repr

/-- The opcode table (R94; spec/opcode_table.json). -/
def opcodeTable : List OpcodeRow :=
  [ ⟨"NOP", 0x00000000, 0xFFFFFFFF⟩,
    ⟨"CFG", 0x10000000, 0xF000FF00⟩,
    ⟨"START", 0x20000000, 0xFFFFFFFF⟩,
    ⟨"STOP", 0x30000000, 0xFFFFFFFF⟩,
    ⟨"ACQUIRE", 0x40000000, 0xFFFFFFFF⟩,
    ⟨"RELEASE", 0x50000000, 0xFFFFFFFF⟩,
    ⟨"CRC.BUILD", 0x60000000, 0xFFFF0000⟩,
    ⟨"CRC.SEED", 0x70000000, 0xFFFF0000⟩,
    ⟨"CRC.COMPUTE", 0x80000000, 0xF8000000⟩,
    ⟨"CRC.COMPUTE.INV", 0x88000000, 0xF8000000⟩,
    ⟨"DECODE", 0x90000000, 0xFFFFFFFF⟩,
    ⟨"VRESET", 0xA0000000, 0xFFFFFFFF⟩ ]

/-- The table row of an instruction, by its place in the table. -/
def Instr.rowIndex : Instr → Fin 12
  | .nop => 0
  | .cfg _ _ => 1
  | .start => 2
  | .stop => 3
  | .acquire => 4
  | .release => 5
  | .crcBuild _ => 6
  | .crcSeed _ => 7
  | .crcCompute _ _ => 8
  | .crcComputeInv _ _ => 9
  | .decode => 10
  | .vreset => 11

/-- The table row of an instruction. -/
def Instr.row (i : Instr) : OpcodeRow := opcodeTable[i.rowIndex]

/-- A word matches a row of the table. -/
def OpcodeRow.covers (r : OpcodeRow) (w : Word) : Bool := w &&& r.mask == r.pattern

/-- The commands of a well-formed line: R99's one command, R100's expansion. -/
def Asm.expand : Asm → List Instr
  | .nop => [.nop]
  | .cfg n p => [.cfg (.ofNat 12 n) (.ofNat 8 p)]
  | .start => [.start]
  | .stop => [.stop]
  | .acquire => [.acquire]
  | .release => [.release]
  | .crcBuild poly => [.crcBuild (.ofNat 16 poly)]
  | .crcSeed seed => [.crcSeed (.ofNat 16 seed)]
  | .crcCompute addr len => [.crcCompute (.ofNat 16 addr) (.ofNat 11 len)]
  | .crcComputeInv addr len => [.crcComputeInv (.ofNat 16 addr) (.ofNat 11 len)]
  | .decode => [.decode]
  | .vreset => [.vreset]
  | .cycle => [.acquire, .decode, .release]
  | .stateEnter => [.start, .vreset]
  | .crcSetup poly seed => [.crcBuild (.ofNat 16 poly), .crcSeed (.ofNat 16 seed)]
  | .crcPkt base => [.crcComputeInv (.ofNat 16 (base + 14)) 13]

/-- The assembler: the words of a line, or an assembly error (`none`) where an operand does not fit its field (R99). -/
def assemble (l : Asm) : Option (List Word) :=
  if l.wellFormed then some (l.expand.map encode) else none

/-- The digits of R99's operands, each at the place of its value. -/
def digitChars : List Char := "0123456789abcdef".toList

/-- A digit of a base, capital or small (log entry 17). -/
def digitIn (base : Nat) (c : Char) : Option Nat := (digitChars.idxOf? c.toLower).filter (· < base)

/-- A number from its digits, the highest first. -/
def readNumber (base : Nat) (cs : List Char) : Option Nat :=
  if cs.isEmpty then none else (cs.mapM (digitIn base)).map fun ds => Nat.ofDigits base ds.reverse

/-- An operand: decimal, or hexadecimal after `0x` (R99). -/
def readOperand (cs : List Char) : Option Nat :=
  if ['0', 'x'].isPrefixOf cs then readNumber 16 (cs.drop 2) else readNumber 10 cs

/-- The parts of a text between separators. -/
def splitAtChar (sep : Char) : List Char → List (List Char)
  | [] => [[]]
  | c :: cs =>
    match c == sep, splitAtChar sep cs with
    | true, parts => [] :: parts
    | false, part :: parts => (c :: part) :: parts
    | false, [] => [[c]]

/-- A text without the blanks at its ends. -/
def trimBlanks (cs : List Char) : List Char := ((cs.dropWhile (· == ' ')).reverse.dropWhile (· == ' ')).reverse

/-- The line of a mnemonic with its operands (R99, R100). -/
def Asm.ofParts : String → List Nat → Option Asm
  | "NOP", [] => some .nop
  | "CFG", [n, p] => some (.cfg n p)
  | "START", [] => some .start
  | "STOP", [] => some .stop
  | "ACQUIRE", [] => some .acquire
  | "RELEASE", [] => some .release
  | "CRC.BUILD", [poly] => some (.crcBuild poly)
  | "CRC.SEED", [seed] => some (.crcSeed seed)
  | "CRC.COMPUTE", [addr, len] => some (.crcCompute addr len)
  | "CRC.COMPUTE.INV", [addr, len] => some (.crcComputeInv addr len)
  | "DECODE", [] => some .decode
  | "VRESET", [] => some .vreset
  | "CYCLE", [] => some .cycle
  | "STATE_ENTER", [] => some .stateEnter
  | "CRC.SETUP", [poly, seed] => some (.crcSetup poly seed)
  | "CRC.PKT", [base] => some (.crcPkt base)
  | _, _ => none

/-- One line of assembler text: a mnemonic, a blank and its operands, with commas between them (R99). -/
def Asm.parse (text : String) : Option Asm :=
  let line := trimBlanks text.toList
  let mnemonic := line.takeWhile (· != ' ')
  let rest := trimBlanks (line.dropWhile (· != ' '))
  let operands := if rest.isEmpty then [] else splitAtChar ',' rest
  (operands.mapM fun w => readOperand (trimBlanks w)).bind (Asm.ofParts (String.ofList mnemonic))

/-- The assembler on one line of text: its words, or an error. -/
def assembleLine (text : String) : Option (List Word) := (Asm.parse text).bind assemble

end Sys2Proof
end

