-- ==== Sys2Proof/Machine/Parameters.lean ====
section
/-! DEFINITION. The values the spec gives the parameters of 00_scope.md R8: the fixed ones, and the defaults of the open
ones. -/

namespace Sys2Proof

/-- The bits `pkt[byte][bits]` in the order given. -/
def Config.bitsOf (byte : Fin 15) (bits : List (Fin 8)) : FieldDesc :=
  bits.map fun b => ⟨byte, b⟩

/-- `FLAG[0]` to `FLAG[37]` of R215, in ascending (byte, bit) order. -/
def Config.flagBits : List BitPos :=
  bitsOf 4 [4, 5, 6, 7] ++ bitsOf 5 [3, 4, 5, 6, 7] ++ bitsOf 6 [0, 1, 2, 3, 4, 5] ++
    bitsOf 7 [1, 2, 3, 4, 5, 6, 7] ++ bitsOf 8 [0, 1, 2, 3, 4, 5, 6, 7] ++ bitsOf 9 [0, 1, 2, 3, 4, 5, 6, 7]

/-- The spec's default `FIELD_TABLE` (R215): FLAGS_LO, FLAGS_HI, GRP_R (R217), GRP_S (R218), PKT_ERR, MODE, AUX. -/
def Config.defaultFieldTable : List FieldDesc :=
  [ flagBits.take 32,
    flagBits.drop 32,
    bitsOf 5 [2, 1, 0],
    bitsOf 7 [0] ++ bitsOf 6 [7, 6],
    bitsOf 4 [0, 1, 2, 3],
    bitsOf 3 [7],
    bitsOf 3 [2, 3, 4, 5, 6] ]

/-- The defaults of R8: variant A, `SYNC_B = 0xAA`, the table of R215. -/
def Config.default : Config :=
  { variant := .a, syncB := 0xAA, fieldTable := defaultFieldTable }

/-- `N_MAX` (R8): the largest number of slots. -/
def Config.nMax : Nat := 4095

/-- `ARENA_MAX` (R8): the largest N·P, in bytes. -/
def Config.arenaMax : Nat := 65536

/-- `P_DEC` (R8): the packet size DECODE requires. -/
def Config.pDec : Byte := 15

/-- `DEC_POLY` (R8, R46). -/
def Config.decPoly : Half := 0x3D65

/-- `DEC_SEED` (R8, R46). -/
def Config.decSeed : Half := 0xFFFF

/-- `SYNC_A` (R8, D28). -/
def Config.syncA : Byte := 0x55

/-- The identity constant of R24. -/
def Config.identity : Word := 0x45524601

end Sys2Proof
end

