-- ==== Sys2Proof/Machine/State.lean ====
section
/-! DEFINITION. The state of ERF-CRB (10_state.md), its value after reset (70_reset_and_hazards.md R280), and the reasons a
step of the model can stop. -/

namespace Sys2Proof.Machine

/-- `PROD_PHASE` (R31). The eighth code is never held, so it is no constructor. -/
inductive ProdPhase where
  | stopped
  | drain
  | check
  | read
  | commit
  | empty
  | resync
  deriving DecidableEq, Repr

/-- `CONS_STATE` (R40). The fourth code is never held, so it is no constructor. -/
inductive ConsState where
  | idle
  | waiting
  | holding
  deriving DecidableEq, Repr

/-- The block's fault causes (60_exceptions.md R251). A block fault is a state of the machine, not a stop of the model: the
command takes it, and the next state records it (R255). -/
inductive FaultCode where
  | illegalOpcode
  | reservedBits
  | notConfigured
  | badConfig
  | busy
  | protocol
  | crcNoTable
  | crcRange
  | readUninit
  | decodeSize
  deriving DecidableEq, Repr

/-- What the serial environment offers one producer input step (41_producer.md R140). -/
inductive SerialInput where
  | byte (b : Byte)
  | timeout
  | quiet
  | error
  deriving DecidableEq, Repr

/-- One read-port access: a space and an address of that space's width (20_memory.md R60, R66). -/
inductive ReadAccess where
  | register (a : BitVec 12)
  | validity (a : BitVec 12)
  | arena (a : Half)
  deriving DecidableEq, Repr

/-- One choice of the outside and of the scheduler: which agent goes next, with its input (R270, R272; log entry 1). -/
inductive Turn where
  /-- CONSUMER: a command word is written to the command port (R110). -/
  | command (w : Word)
  /-- CONSUMER: the wake step of a blocked ACQUIRE (R124). -/
  | wake
  /-- PRODUCER: an internal step, CHECK, COMMIT or EMPTY (R141). -/
  | produce
  /-- PRODUCER: an input step, with the environment's input (R140, R141). -/
  | serial (e : SerialInput)
  /-- READER: one read-port access (R66). -/
  | read (a : ReadAccess)
  /-- The reset line (R280). -/
  | reset
  deriving DecidableEq, Repr

/-- A byte space in canonical form: addresses strictly rising, nothing listed that an unlisted address reads as. -/
abbrev Memory := List Host.Cell

/-- The validator's running state (R47, R48). -/
structure Validator where
  /-- `V_STATE`: false AwaitingFirst, true Streaming. -/
  streaming : Bool
  lastSeq : BitVec 2
  seqHave : Bool
  lastSync : Byte
  syncHave : Bool
  lastTs : BitVec 64
  deriving DecidableEq, Repr

/-- The decoder's output registers (R49). -/
structure Outputs where
  trigger : Bool
  err : BitVec 8
  ts : BitVec 64
  seq : BitVec 2
  sync : Byte
  crcRx : Half
  crcCalc : Half
  field : Vector Word 38
  raw : Vector Byte 15
  deriving DecidableEq, Repr

/-- Everything the spec gives the block, in the order of 10_state.md, and three fields of the model's own (`pending`,
`draws`, `readData`). -/
structure State where
  /-- The build parameters (R8, R54): constant. -/
  config : Config
  /-- `CFG_DONE` (R22). -/
  cfgDone : Bool
  /-- `N`, register CFG_N (R23). -/
  n : BitVec 12
  /-- `P`, register CFG_P (R23). -/
  p : BitVec 8
  /-- `W_IDX` (R25). -/
  wIdx : BitVec 12
  /-- `R_IDX` (R25). -/
  rIdx : BitVec 12
  /-- `VALID[]` (R26): the bytes that are not 0x00. -/
  valid : Memory
  /-- `ARENA[]` and `WRITTEN[]` (R27, R28): the bytes written since the last CFG. -/
  arena : Memory
  /-- `EVENT` (R29). -/
  event : Bool
  /-- `OVR` (R30). -/
  ovr : Bool
  /-- `OVR_COUNT` (R30). -/
  ovrCount : BitVec 32
  /-- `PROD_PHASE` (R31). -/
  prodPhase : ProdPhase
  /-- `RD_COUNT` (R32). -/
  rdCount : BitVec 8
  /-- `CONS_STATE` (R40). -/
  consState : ConsState
  /-- `ACQ_OFFSET` (R41). -/
  acqOffset : BitVec 16
  /-- `ACQ_VALID` (R42). -/
  acqValid : Bool
  /-- `ACQ_DIRTY` (R43). -/
  acqDirty : Bool
  /-- `DECODED` (R44). -/
  decoded : Bool
  /-- `CRC_POLY` (R45). -/
  crcPoly : Half
  /-- `CRC_SEED` (R45). -/
  crcSeed : Half
  /-- `CRC_RESULT` (R45). -/
  crcResult : Half
  /-- `CRC_TABLE[]` (R45): without meaning while `crcTableValid` is false. -/
  crcTable : Vector Half 256
  /-- `CRC_TABLE_VALID` (R45). -/
  crcTableValid : Bool
  /-- R47, R48. -/
  validator : Validator
  /-- R49. -/
  outputs : Outputs
  /-- `FAULTED` (R50). -/
  faulted : Bool
  /-- `FAULT_CODE` (R50). -/
  faultCode : BitVec 8
  /-- `FAULT_CMD` (R50). -/
  faultCmd : Word
  /-- The model's own: the turns not yet taken, the next one first (log entry 1). -/
  pending : List Turn
  /-- The model's own: the index of the next `draw(n)` (log entry 5). -/
  draws : Nat
  /-- The model's own: what the last read-port access returned (log entry 10). -/
  readData : Word
  deriving DecidableEq, Repr

/-- Why the model stops. Each is raised only in states that no run from reset reaches (log entry 11). -/
inductive Fault where
  /-- `W_IDX` or `R_IDX` names a slot outside `0 .. N-1`, which does not exist (R25, R26). Raised by ACQUIRE, RELEASE, the
  wake step and the producer's steps. Safe: the model stops where the spec gives no meaning. -/
  | noSuchSlot
  /-- The 15 bytes at `ACQ_OFFSET` do not all lie in the arena in use (R27, R63). Raised by DECODE. Safe, as above. -/
  | noSuchArenaByte
  deriving DecidableEq, Repr

/-- Why the model gives no meaning. -/
inductive Refusal where
  /-- An instruction without a meaning, by its mnemonic. Raised by the dispatcher only. Safe. -/
  | notModelled (mnemonic : String)
  deriving DecidableEq, Repr

/-- What a meaning or a step answers. -/
abbrev Result := Host.Outcome State Fault Refusal

/-- The validator's reset values (R48). -/
def Validator.reset : Validator :=
  { streaming := false, lastSeq := 0, seqHave := false, lastSync := 0, syncHave := false, lastTs := 0 }

/-- Every output register 0 (R49, and R224's cleared outputs). -/
def Outputs.zero : Outputs :=
  { trigger := false, err := 0, ts := 0, seq := 0, sync := 0, crcRx := 0, crcCalc := 0
    field := .replicate 38 0, raw := .replicate 15 0 }

/-- The block built with parameters `c`, right after reset (R280). The cells of `crcTable` are placeholders: the spec gives
them no value and nothing reads them before CRC.BUILD (log entry 8). -/
def State.resetOf (c : Config) : State :=
  { config := c
    cfgDone := false, n := 0, p := 0
    wIdx := 0, rIdx := 0, valid := [], arena := []
    event := false, ovr := false, ovrCount := 0
    prodPhase := .stopped, rdCount := 0
    consState := .idle, acqOffset := 0, acqValid := false, acqDirty := false, decoded := false
    crcPoly := 0, crcSeed := 0, crcResult := 0, crcTable := .replicate 256 0, crcTableValid := false
    validator := .reset, outputs := .zero
    faulted := false, faultCode := 0, faultCmd := 0
    pending := [], draws := 0, readData := 0 }

/-- The machine right after reset, with the spec's default parameters (R8, R280; log entry 6) and nothing offered (R283). -/
def State.reset : State := .resetOf .default

end Sys2Proof.Machine
end

