-- ==== Sys2Proof/Machine/Ops.lean ====
section
/-! DEFINITION. The shared operations: the byte spaces (20_memory.md R60 to R64), slots and indices (10_state.md R25 to R27),
the block fault (60_exceptions.md R255) and the reset line that alone ends it (70_reset_and_hazards.md R280). -/

namespace Sys2Proof.Machine

/-! ## Byte spaces -/

/-- The byte listed at an address, if one is. -/
def Memory.find : Memory → Nat → Option Byte
  | [], _ => none
  | c :: m, a => if c.1 = a then some c.2 else Memory.find m a

/-- List a byte at an address, in address order, in place of the one listed there. -/
def Memory.put : Memory → Nat → Byte → Memory
  | [], a, v => [(a, v)]
  | c :: m, a, v =>
    if a < c.1 then (a, v) :: c :: m
    else if a = c.1 then (a, v) :: m
    else c :: Memory.put m a v

/-- Take an address off the list. -/
def Memory.drop : Memory → Nat → Memory
  | [], _ => []
  | c :: m, a => if c.1 = a then m else c :: Memory.drop m a

/-- Every listed address is above a bound. -/
def Memory.above (b : Nat) (m : Memory) : Bool := m.all fun c => b < c.1

/-- The canonical form of a byte space: addresses strictly rising. For the arena this is all of it, since an unlisted
address has no value (R28). -/
def Memory.wf : Memory → Bool
  | [] => true
  | c :: m => Memory.above c.1 m && Memory.wf m

/-- The canonical form of the validity space: besides, nothing listed that reads 0x00, the value of an unlisted flag. -/
def Memory.flagsWf (m : Memory) : Bool := Memory.wf m && m.all fun c => c.2 != 0

/-- What an unlisted validity address reads as: 0x00, its value after reset and after CFG (R26, R280). -/
def unlistedFlag : Byte := 0

/-! ## The validity space -/

/-- `VALID[i]` (R26). -/
def State.validByte (s : State) (i : Nat) : Byte := (s.valid.find i).getD unlistedFlag

/-- `VALID[i]` as every rule reads it: is it nonzero (R26). -/
def State.isValid (s : State) (i : Nat) : Bool := s.validByte i != 0

/-- `VALID[i] <- v`, kept in canonical form. -/
def State.setValid (s : State) (i : Nat) (v : Byte) : State :=
  { s with valid := if v = unlistedFlag then s.valid.drop i else s.valid.put i v }

/-! ## The arena space -/

/-- N·P, the arena bytes in use (R27). -/
def State.arenaSize (s : State) : Nat := s.n.toNat * s.p.toNat

/-- `WRITTEN[a]` (R28). -/
def State.written (s : State) (a : Nat) : Bool := (s.arena.find a).isSome

/-- `ArenaRead(a)` for an address in use: the byte, or none where READ_UNINIT is raised (R63). -/
def State.arenaRead (s : State) (a : Nat) : Option Byte := s.arena.find a

/-- `ArenaRead` of a list of addresses in order: all the bytes, or none where one of them was never written (R63). -/
def State.arenaBytes (s : State) : List Nat → Option (List Byte)
  | [] => some []
  | a :: as =>
    match s.arenaRead a, s.arenaBytes as with
    | some b, some bs => some (b :: bs)
    | _, _ => none

/-- `ArenaWrite(a, v)` (R64). -/
def State.arenaWrite (s : State) (a : Nat) (v : Byte) : State := { s with arena := s.arena.put a v }

/-! ## Slots -/

/-- The arena offset of slot i (R62). -/
def State.slotBase (s : State) (i : BitVec 12) : Nat := i.toNat * s.p.toNat

/-- The slot exists: `i < N` (R26). -/
def State.slotExists (s : State) (i : BitVec 12) : Bool := i.toNat < s.n.toNat

/-- `(i + 1) mod N` (R25). -/
def State.nextSlot (s : State) (i : BitVec 12) : BitVec 12 := .ofNat 12 ((i.toNat + 1) % s.n.toNat)

/-- The producer is filling slot i: it is in READ with `W_IDX = i` (R43, R180). -/
def State.filling (s : State) (i : BitVec 12) : Bool := s.prodPhase == .read && s.wIdx == i

/-! ## The block fault -/

/-- The number of a fault code (R251). -/
def FaultCode.number : FaultCode → BitVec 8
  | .illegalOpcode => 1
  | .reservedBits => 2
  | .notConfigured => 3
  | .badConfig => 4
  | .busy => 5
  | .protocol => 6
  | .crcNoTable => 7
  | .crcRange => 8
  | .readUninit => 9
  | .decodeSize => 10

/-- The fault of a word that does not decode (R98). -/
def decodeFault : DecodeError → FaultCode
  | .illegalOpcode => .illegalOpcode
  | .reservedBits => .reservedBits

/-- Fault entry, `raise Fault(code)` for the command word `w` (R255): three registers, and nothing else. -/
def State.takeFault (s : State) (code : FaultCode) (w : Word) : State :=
  { s with faulted := true, faultCode := code.number, faultCmd := w }

/-- A command raises a fault: the step ends in the fault state, recording the command's word (R255). -/
def raiseFault (code : FaultCode) (i : Instr) (s : State) : Result := .next (s.takeFault code (encode i))

/-- There is no return from a fault (R259): only the reset line clears it. Reset sets every register to its reset value
(R280, R281); the build parameters, the outside's turns, the draw counter and the reader's last value are no registers of
the block (log entries 1, 5, 10). -/
def State.resetLine (s : State) : State :=
  { State.resetOf s.config with pending := s.pending, draws := s.draws, readData := s.readData }

/-- The level output `fault` (R258). -/
def State.faultLine (s : State) : Bool := s.faulted

end Sys2Proof.Machine
end

