-- ==== Sys2Proof/Machine/CrcEngine.lean ====
section
/-! DEFINITION. The CRC-16 functions of both engines (42_crc.md R170 to R173, R185, R187; 00_scope.md R15). -/

namespace Sys2Proof.Machine

/-- One step of the polynomial division: shift left, XOR with the polynomial if the top bit was set (R171). -/
def divStep (poly c : Half) : Half := if c.msb then (c <<< 1) ^^^ poly else c <<< 1

/-- Eight division steps (R171). -/
def divByte (poly c : Half) : Half :=
  divStep poly (divStep poly (divStep poly (divStep poly (divStep poly (divStep poly (divStep poly (divStep poly c)))))))

/-- `TableOf(poly)[i]`: the candidate byte enters at bits 15:8 (R171). -/
def tableEntry (poly : Half) (i : Byte) : Half := divByte poly (i.zeroExtend 16 <<< 8)

/-- `TableOf(poly)` (R171). -/
def tableOf (poly : Half) : Vector Half 256 := .ofFn fun i => tableEntry poly (.ofNat 8 i.val)

/-- A table entry by its byte index. -/
def tableAt (t : Vector Half 256) (i : Byte) : Half := t[i.toNat]'i.isLt

/-- `CrcStep(T, crc, b)` (R15). -/
def crcStep (t : Vector Half 256) (crc : Half) (b : Byte) : Half :=
  (crc <<< 8) ^^^ tableAt t (crc.extractLsb' 8 8 ^^^ b)

/-- `CrcRun(T, seed, bytes)`: no final XOR and no reflection (R173). -/
def crcRun (t : Vector Half 256) (seed : Half) (bytes : List Byte) : Half := bytes.foldl (crcStep t) seed

/-- `DEC_TABLE`, the decoder's own table (R46, R185). -/
def decTable : Vector Half 256 := tableOf Config.decPoly

/-- A 15-byte packet, byte k at slot offset k (R11). -/
abbrev Packet := Vector Byte 15

/-- The 13 payload bytes in feed order, `pkt[14]` down to `pkt[2]` (R65 (b), R187). -/
def payload (pkt : Packet) : List Byte :=
  [pkt[14], pkt[13], pkt[12], pkt[11], pkt[10], pkt[9], pkt[8], pkt[7], pkt[6], pkt[5], pkt[4], pkt[3], pkt[2]]

/-- `PacketCrc(pkt)` (R187). -/
def packetCrc (pkt : Packet) : Half := crcRun decTable Config.decSeed (payload pkt)

end Sys2Proof.Machine
end

