-- ==== Sys2Proof/Machine/Operands.lean ====
section
/-! DEFINITION. The operand forms: the byte range of format C, forward and inverted (42_crc.md R174, R179), and the fields of
a packet (43_unpack_validate.md R200 to R218). -/

namespace Sys2Proof.Machine

/-! ## Format C ranges -/

/-- The addresses `a_0 .. a_{len-1}` of a range, in the order they are read (R174). -/
def rangeAddrs (inv : Bool) (addr : Half) (len : BitVec 11) : List Nat :=
  (List.range len.toNat).map fun k => if inv then addr.toNat - k else addr.toNat + k

/-- The range leaves the arena bytes in use; an empty range is not checked (R179). -/
def rangeLeaves (inv : Bool) (addr : Half) (len : BitVec 11) (size : Nat) : Bool :=
  len != 0 &&
    (if inv then size ≤ addr.toNat || addr.toNat + 1 < len.toNat else size < addr.toNat + len.toNat)

/-- Some address of the list lies in the slot the producer is filling (R179, R180). -/
def State.touchesFilling (s : State) (addrs : List Nat) : Bool :=
  s.prodPhase == .read &&
    addrs.any fun a => s.slotBase s.wIdx ≤ a && a < s.slotBase s.wIdx + s.p.toNat

/-! ## Packet fields -/

/-- The addresses of a packet's 15 bytes from its slot's offset (R222). -/
def packetAddrs (base : Nat) : List Nat := (List.range 15).map fun k => base + k

/-- The packet of 15 bytes read in slot order (R11). -/
def packetOf (bytes : List Byte) : Packet := .ofFn fun k => bytes.getD k.val 0

/-- A packet of 15 draws, the first at index `k` (R222). -/
def drawPacket (k : Nat) : Packet := .ofFn fun j => Config.draw 8 (k + j.val)

/-- The 40-bit timestamp, zero-extended (R202). -/
def packetTs (pkt : Packet) : BitVec 64 :=
  (pkt[14] ++ pkt[13] ++ pkt[12] ++ pkt[11] ++ pkt[10] : BitVec 40).zeroExtend 64

/-- The sequence counter (R204). -/
def packetSeq (pkt : Packet) : BitVec 2 := pkt[3].extractLsb' 0 2

/-- The sync byte (R204). -/
def packetSync (pkt : Packet) : Byte := pkt[2]

/-- The CRC trailer, little-endian (R204). -/
def packetTrailer (pkt : Packet) : Half := pkt[1] ++ pkt[0]

/-- `pkt[byte][bit]` (R11). -/
def packetBit (pkt : Packet) (q : BitPos) : Bool := (pkt[q.byte]).getLsbD q.bit.val

/-- The bits of a descriptor from output bit `m` on, each at its place, summed (R212). -/
def fieldFrom (pkt : Packet) : Nat → FieldDesc → Word
  | _, [] => 0
  | m, q :: d => ((BitVec.ofBool (packetBit pkt q)).zeroExtend 32 <<< m) + fieldFrom pkt (m + 1) d

/-- `Unpack(pkt)[j]` for every output field; a field beyond the table is 0 (R212; 10_state.md R52). -/
def unpack (table : List FieldDesc) (pkt : Packet) : Vector Word 38 :=
  .ofFn fun j => match table[j.val]? with
    | some d => fieldFrom pkt 0 d
    | none => 0

/-- `rev3` (R16). -/
def rev3 (x : BitVec 3) : BitVec 3 := x.extractLsb' 0 1 ++ x.extractLsb' 1 1 ++ x.extractLsb' 2 1

end Sys2Proof.Machine
end

