-- ==== Sys2Proof/Machine/Flags.lean ====
section
/-! DEFINITION. What the spec computes as flags: the error-code bits of the packet checks (43_unpack_validate.md R226 to
R232, R242), and the STATUS word (10_state.md R51). -/

namespace Sys2Proof.Machine

/-! ## Error-code bits (R242) -/

/-- 0x01, invalid CRC. -/
def errCrc : BitVec 8 := 0x01

/-- 0x02, sequence discontinuity. -/
def errSeq : BitVec 8 := 0x02

/-- 0x04, repeated sync byte. -/
def errRepeat : BitVec 8 := 0x04

/-- 0x08, invalid sync byte. -/
def errSync : BitVec 8 := 0x08

/-- 0x10, time not rising. -/
def errTime : BitVec 8 := 0x10

/-- The checks' running result: the error code, the fatal flag, and the validator state as updated so far. -/
structure Verdict where
  err : BitVec 8
  fatal : Bool
  validator : Validator
  deriving DecidableEq, Repr

/-- The CRC check (R226). -/
def checkCrc (computed rx : Half) (v : Validator) : Verdict :=
  if computed = rx then { err := 0, fatal := false, validator := v }
  else { err := errCrc, fatal := true, validator := v }

/-- The sequence check (R228). -/
def checkSeq (seq : BitVec 2) (r : Verdict) : Verdict :=
  if r.fatal then r
  else
    { r with
      err := if r.validator.seqHave && seq != r.validator.lastSeq + 1 then r.err ||| errSeq else r.err
      validator := { r.validator with lastSeq := seq, seqHave := true } }

/-- The synchronization check (R230). -/
def checkSync (syncB sync : Byte) (r : Verdict) : Verdict :=
  if r.fatal then r
  else if sync != Config.syncA && sync != syncB then { r with err := r.err ||| errSync, fatal := true }
  else
    { r with
      err := if r.validator.syncHave && sync == r.validator.lastSync then r.err ||| errRepeat else r.err
      validator := { r.validator with lastSync := sync, syncHave := true } }

/-- The time check (R232). -/
def checkTime (ts : BitVec 64) (r : Verdict) : Verdict :=
  if r.fatal then r
  else if r.validator.lastTs != 0 && ts ≤ r.validator.lastTs then { r with err := r.err ||| errTime }
  else { r with validator := { r.validator with lastTs := ts } }

/-- The four checks in order (R226 to R232). -/
def checkPacket (syncB : Byte) (pkt : Packet) (v : Validator) : Verdict :=
  checkTime (packetTs pkt)
    (checkSync syncB (packetSync pkt) (checkSeq (packetSeq pkt) (checkCrc (packetCrc pkt) (packetTrailer pkt) v)))

/-! ## STATUS (R51) -/

/-- The encoding of PROD_PHASE (R31). -/
def ProdPhase.code : ProdPhase → BitVec 3
  | .stopped => 0
  | .drain => 1
  | .check => 2
  | .read => 3
  | .commit => 4
  | .empty => 5
  | .resync => 6

/-- The encoding of CONS_STATE (R40). -/
def ConsState.code : ConsState → BitVec 2
  | .idle => 0
  | .waiting => 1
  | .holding => 2

/-- The encoding of VARIANT in STATUS (R51). -/
def variantBit : Variant → Bool
  | .a => false
  | .b => true

/-- The STATUS word (R51), its highest field first. -/
def State.status (s : State) : Word :=
  (0 : BitVec 15) ++ BitVec.ofBool (variantBit s.config.variant) ++ BitVec.ofBool s.validator.syncHave ++
    BitVec.ofBool s.validator.seqHave ++ BitVec.ofBool s.validator.streaming ++ s.consState.code ++ s.prodPhase.code ++
    BitVec.ofBool s.crcTableValid ++ BitVec.ofBool s.ovr ++ BitVec.ofBool s.decoded ++ BitVec.ofBool s.acqDirty ++
    BitVec.ofBool s.acqValid ++ BitVec.ofBool s.event ++ BitVec.ofBool s.faulted ++ BitVec.ofBool s.cfgDone

end Sys2Proof.Machine
end

