-- ==== Sys2Proof/Machine/Crc.lean ====
section
/-! DEFINITION. The CRC commands CRC.BUILD, CRC.SEED, CRC.COMPUTE, CRC.COMPUTE.INV (42_crc.md R175 to R180). -/

namespace Sys2Proof.Machine

/-- CRC.BUILD poly (R175). -/
def execCrcBuild (poly : Half) (s : State) : Result :=
  .next { s with crcTable := tableOf poly, crcPoly := poly, crcTableValid := true }

/-- CRC.SEED seed (R177). -/
def execCrcSeed (seed : Half) (s : State) : Result := .next { s with crcSeed := seed }

/-- The result of a compute whose range holds `bytes`: `draw(16)` if the producer is filling a slot the range touches (R180),
else the CRC from `CRC_SEED` (R179). -/
def State.computeOver (s : State) (addrs : List Nat) (bytes : List Byte) : State :=
  if s.touchesFilling addrs then { s with crcResult := Config.draw 16 s.draws, draws := s.draws + 1 }
  else { s with crcResult := crcRun s.crcTable s.crcSeed bytes }

/-- The compute of R179 for the command `i`, in either traversal. -/
def computeCrc (inv : Bool) (addr : Half) (len : BitVec 11) (i : Instr) (s : State) : Result :=
  if !s.cfgDone then raiseFault .notConfigured i s
  else if !s.crcTableValid then raiseFault .crcNoTable i s
  else if rangeLeaves inv addr len s.arenaSize then raiseFault .crcRange i s
  else
    match s.arenaBytes (rangeAddrs inv addr len) with
    | none => raiseFault .readUninit i s
    | some bytes => .next (s.computeOver (rangeAddrs inv addr len) bytes)

/-- CRC.COMPUTE addr, len (R179, inv = 0). -/
def execCrcCompute (addr : Half) (len : BitVec 11) (s : State) : Result :=
  computeCrc false addr len (.crcCompute addr len) s

/-- CRC.COMPUTE.INV addr, len (R179, inv = 1). -/
def execCrcComputeInv (addr : Half) (len : BitVec 11) (s : State) : Result :=
  computeCrc true addr len (.crcComputeInv addr len) s

end Sys2Proof.Machine
end

