-- ==== Sys2Proof/Machine/Decoder.lean ====
section
/-! DEFINITION. The decoder and validator commands DECODE and VRESET (43_unpack_validate.md R220 to R240). -/

namespace Sys2Proof.Machine

/-- The decoder's enable: `ACQ_VALID` in variant A, constantly 1 in variant B (R224). -/
def State.decoderEnabled (s : State) : Bool :=
  match s.config.variant with
  | .a => s.acqValid
  | .b => true

/-- `torn`: the producer has written, or may be writing, the held slot (R222). -/
def State.torn (s : State) : Bool := s.acqDirty || s.filling s.rIdx

/-- The output registers of a decoded packet (R234). -/
def packetOutputs (table : List FieldDesc) (pkt : Packet) (r : Verdict) : Outputs :=
  { trigger := !r.fatal
    err := r.err
    ts := packetTs pkt
    seq := packetSeq pkt
    sync := packetSync pkt
    crcRx := packetTrailer pkt
    crcCalc := packetCrc pkt
    field := unpack table pkt
    raw := pkt }

/-- An enabled DECODE of a packet: the checks (R226 to R232), the outputs (R234), the state machine (R236). -/
def State.decodePacket (s : State) (pkt : Packet) : State :=
  let r := checkPacket s.config.syncB pkt s.validator
  { s with
    outputs := packetOutputs s.config.fieldTable pkt r
    validator := { r.validator with streaming := true }
    decoded := true }

/-- A disabled DECODE: the outputs are cleared and no check runs (R224). -/
def State.decodeDisabled (s : State) : State := { s with outputs := .zero, decoded := true }

/-- An enabled DECODE whose slot holds `bytes`: of the bytes, or of 15 draws if the read is torn (R222). -/
def State.decodeBytes (s : State) (bytes : List Byte) : State :=
  if s.torn then { s with draws := s.draws + 15 }.decodePacket (drawPacket s.draws)
  else s.decodePacket (packetOf bytes)

/-- DECODE (R238). -/
def execDecode (s : State) : Result :=
  if !s.cfgDone then raiseFault .notConfigured .decode s
  else if s.consState != .holding || s.decoded then raiseFault .protocol .decode s
  else if s.p != Config.pDec then raiseFault .decodeSize .decode s
  else if !s.decoderEnabled then .next s.decodeDisabled
  else if s.arenaSize < s.acqOffset.toNat + 15 then .fault .noSuchArenaByte
  else
    match s.arenaBytes (packetAddrs s.acqOffset.toNat) with
    | none => raiseFault .readUninit .decode s
    | some bytes => .next (s.decodeBytes bytes)

/-- VRESET (R240). -/
def execVreset (s : State) : Result := .next { s with validator := .reset }

end Sys2Proof.Machine
end

