-- ==== Sys2Proof/Machine/RingBuffer.lean ====
section
/-! DEFINITION. The ring-buffer commands NOP, CFG, START, STOP, ACQUIRE, RELEASE, and the wake step of a blocked ACQUIRE
(40_buffer_commands.md). -/

namespace Sys2Proof.Machine

/-- NOP (R112). -/
def execNop (s : State) : Result := .next s

/-- What an accepted CFG writes (R116). `RD_COUNT` is among it: log entry 19. -/
def State.configure (s : State) (n : BitVec 12) (p : BitVec 8) : State :=
  { s with
    n := n, p := p
    valid := [], arena := []
    wIdx := 0, rIdx := 0, rdCount := 0, event := false
    ovr := false, ovrCount := 0
    acqOffset := 0, acqValid := false, acqDirty := false, decoded := false
    cfgDone := true }

/-- CFG refuses this ring: a zero count, a zero size, or more than `ARENA_MAX` bytes (R116). -/
def badRing (n : BitVec 12) (p : BitVec 8) : Bool :=
  n == 0 || p == 0 || Config.arenaMax < n.toNat * p.toNat

/-- CFG n, p (R116). -/
def execCfg (n : BitVec 12) (p : BitVec 8) (s : State) : Result :=
  if s.prodPhase != .stopped || s.consState != .idle then raiseFault .busy (.cfg n p) s
  else if badRing n p then raiseFault .badConfig (.cfg n p) s
  else .next (s.configure n p)

/-- START (R118). Besides `PROD_PHASE` it clears `RD_COUNT`, as R118 writes it: log entry 19. -/
def execStart (s : State) : Result :=
  if !s.cfgDone then raiseFault .notConfigured .start s
  else if s.prodPhase == .stopped then .next { s with prodPhase := .drain, rdCount := 0 }
  else .next s

/-- STOP (R120). Besides `PROD_PHASE` it clears `RD_COUNT`, as R120 writes it: log entry 19. -/
def execStop (s : State) : Result := .next { s with prodPhase := .stopped, rdCount := 0 }

/-- `AcquireReturn()` (R126). -/
def State.acquireReturn (s : State) : State :=
  { s with
    acqOffset := .ofNat 16 (s.slotBase s.rIdx)
    acqValid := s.isValid s.rIdx.toNat
    acqDirty := false, decoded := false, consState := .holding }

/-- ACQUIRE, issue step (R122). -/
def execAcquire (s : State) : Result :=
  if !s.cfgDone then raiseFault .notConfigured .acquire s
  else if s.consState != .idle then raiseFault .protocol .acquire s
  else if !s.slotExists s.rIdx then .fault .noSuchSlot
  else if s.isValid s.rIdx.toNat then .next s.acquireReturn
  else .next { s with event := false, consState := .waiting }

/-- The wake step is enabled (R124). -/
def State.wakeEnabled (s : State) : Bool := s.consState == .waiting && s.event && !s.faulted

/-- ACQUIRE, wake step (R124); not enabled, it does not happen (log entry 2). -/
def wakeStep (s : State) : Result :=
  if !s.wakeEnabled then .next s
  else if !s.slotExists s.rIdx then .fault .noSuchSlot
  else .next { s with event := false }.acquireReturn

/-- Slot `R_IDX` is marked false and `R_IDX` moves on (R130, R131). -/
def State.consumeSlot (s : State) : State :=
  { s.setValid s.rIdx.toNat 0 with rIdx := s.nextSlot s.rIdx }

/-- `ReleaseVariant()`: variant A consumes a slot that was valid at ACQUIRE and still is (R130), variant B always (R131). -/
def State.releaseVariant (s : State) : State :=
  match s.config.variant with
  | .a => if s.acqValid && s.isValid s.rIdx.toNat then s.consumeSlot else s
  | .b => s.consumeSlot

/-- RELEASE (R128). -/
def execRelease (s : State) : Result :=
  if !s.cfgDone then raiseFault .notConfigured .release s
  else if s.consState != .holding then raiseFault .protocol .release s
  else if !s.slotExists s.rIdx then .fault .noSuchSlot
  else .next { s.releaseVariant with consState := .idle, acqDirty := false }

end Sys2Proof.Machine
end

