-- ==== Sys2Proof/Machine/Dispatch.lean ====
section
/-! DEFINITION. One arm per command (30_encoding.md R94). -/

namespace Sys2Proof.Machine

def exec (i : Instr) (s : State) : Host.Outcome State Fault Refusal :=
  match i with
  | .nop => Sys2Proof.Machine.execNop s
  | .cfg n p => Sys2Proof.Machine.execCfg n p s
  | .start => Sys2Proof.Machine.execStart s
  | .stop => Sys2Proof.Machine.execStop s
  | .acquire => Sys2Proof.Machine.execAcquire s
  | .release => Sys2Proof.Machine.execRelease s
  | .crcBuild poly => Sys2Proof.Machine.execCrcBuild poly s
  | .crcSeed seed => Sys2Proof.Machine.execCrcSeed seed s
  | .crcCompute addr len => Sys2Proof.Machine.execCrcCompute addr len s
  | .crcComputeInv addr len => Sys2Proof.Machine.execCrcComputeInv addr len s
  | .decode => Sys2Proof.Machine.execDecode s
  | .vreset => Sys2Proof.Machine.execVreset s

end Sys2Proof.Machine
end

