-- ==== Sys2Proof/Machine/Producer.lean ====
section
/-! DEFINITION. The producer agent's steps (41_producer.md R140 to R158). A step that is not enabled does not happen: the
turn passes and nothing changes (R142; log entry 2). -/

namespace Sys2Proof.Machine

/-- `OVR_COUNT`, one more, saturating (R30, R146). -/
def overrunCount (c : BitVec 32) : BitVec 32 := if c = BitVec.allOnes 32 then c else c + 1

/-- The overrun report of CHECK (R146). -/
def State.reportOverrun (s : State) : State :=
  if s.isValid s.wIdx.toNat then { s with ovr := true, ovrCount := overrunCount s.ovrCount } else s

/-- CHECK (R146). -/
def producerCheck (s : State) : Result :=
  if !s.slotExists s.wIdx then .fault .noSuchSlot
  else .next { s.reportOverrun with rdCount := 0, prodPhase := .read }

/-- COMMIT (R154). -/
def producerCommit (s : State) : Result :=
  if !s.slotExists s.wIdx then .fault .noSuchSlot
  else .next { s.setValid s.wIdx.toNat 1 with wIdx := s.nextSlot s.wIdx, event := true, prodPhase := .check }

/-- EMPTY: the empty mark of variant A (R156); nothing but the phase in variant B (R157). -/
def producerEmpty (s : State) : Result :=
  match s.config.variant with
  | .a =>
    if !s.slotExists s.wIdx then .fault .noSuchSlot
    else .next { s.setValid s.wIdx.toNat 0 with event := true, prodPhase := .check }
  | .b => .next { s with prodPhase := .check }

/-- An internal step of the producer (R141, R142). -/
def produceStep (s : State) : Result :=
  if s.faulted then .next s
  else
    match s.prodPhase with
    | .check => producerCheck s
    | .commit => producerCommit s
    | .empty => producerEmpty s
    | .stopped | .drain | .read | .resync => .next s

/-- The byte step of READ, what it writes (R150). -/
def State.storeByte (s : State) (b : Byte) : State :=
  { s.arenaWrite (s.slotBase s.wIdx + s.rdCount.toNat) b with
    acqDirty := s.acqDirty || (s.consState == .holding && s.wIdx == s.rIdx)
    rdCount := s.rdCount + 1
    prodPhase := if s.rdCount + 1 = s.p then .commit else s.prodPhase }

/-- READ, input `BYTE(b)` (R150). -/
def readByte (b : Byte) (s : State) : Result :=
  if !s.slotExists s.wIdx then .fault .noSuchSlot else .next (s.storeByte b)

/-- READ, input `TIMEOUT` (R152): a pure timeout goes to EMPTY, a partial read to RESYNC. -/
def readTimeout (s : State) : Result :=
  .next { s with prodPhase := if s.rdCount = 0 then .empty else .resync, rdCount := 0 }

/-- READ, input `ERROR` (R152): RESYNC whatever the count. -/
def readError (s : State) : Result := .next { s with prodPhase := .resync, rdCount := 0 }

/-- READ, any input; enabled while `RD_COUNT < P` (R150, R152). QUIET is not an input of READ (R141). -/
def readInput (e : SerialInput) (s : State) : Result :=
  if s.rdCount < s.p then
    match e with
    | .byte b => readByte b s
    | .timeout => readTimeout s
    | .error => readError s
    | .quiet => .next s
  else .next s

/-- DRAIN and RESYNC: bytes and errors are discarded, QUIET leads to CHECK, TIMEOUT is not an input (R141, R144, R158). -/
def quietInput (e : SerialInput) (s : State) : Result :=
  match e with
  | .quiet => .next { s with prodPhase := .check }
  | .byte _ | .error | .timeout => .next s

/-- An input step of the producer (R141, R142). -/
def serialStep (e : SerialInput) (s : State) : Result :=
  if s.faulted then .next s
  else
    match s.prodPhase with
    | .drain => quietInput e s
    | .resync => quietInput e s
    | .read => readInput e s
    | .stopped | .check | .commit | .empty => .next s

end Sys2Proof.Machine
end

