-- ==== Sys2Proof/Machine/ReadPort.lean ====
section
/-! DEFINITION. The read port: the register map (10_state.md R52), the three readable spaces (20_memory.md R66, R67), and
where they sit in a system's address map (R77). -/

namespace Sys2Proof.Machine

/-- What a read-port access returns: a value of the state, or a draw of a given width (R67). -/
inductive ReadValue where
  | value (v : Word)
  | draw (width : Nat)
  deriving DecidableEq, Repr

/-- The registers at 0x000 to 0x064, by word index; the words above are elsewhere (R52). -/
def State.plainRegister (s : State) : Nat → Word
  | 0 => Config.identity
  | 1 => s.status
  | 2 => s.faultCode.zeroExtend 32
  | 3 => s.faultCmd
  | 4 => s.n.zeroExtend 32
  | 5 => s.p.zeroExtend 32
  | 6 => s.wIdx.zeroExtend 32
  | 7 => s.rIdx.zeroExtend 32
  | 8 => s.rdCount.zeroExtend 32
  | 9 => s.acqOffset.zeroExtend 32
  | 10 => s.ovrCount
  | 11 => s.crcPoly.zeroExtend 32
  | 12 => s.crcSeed.zeroExtend 32
  | 13 => s.crcResult.zeroExtend 32
  | 14 => s.validator.lastSeq.zeroExtend 32
  | 15 => s.validator.lastSync.zeroExtend 32
  | 16 => s.validator.lastTs.extractLsb' 0 32
  | 17 => s.validator.lastTs.extractLsb' 32 32
  | 18 => (BitVec.ofBool s.outputs.trigger).zeroExtend 32
  | 19 => s.outputs.err.zeroExtend 32
  | 20 => s.outputs.ts.extractLsb' 0 32
  | 21 => s.outputs.ts.extractLsb' 32 32
  | 22 => s.outputs.seq.zeroExtend 32
  | 23 => s.outputs.sync.zeroExtend 32
  | 24 => s.outputs.crcRx.zeroExtend 32
  | 25 => s.outputs.crcCalc.zeroExtend 32
  | _ => 0

/-- `OUT_RAW[k]`, and 0 beyond byte 14 (R52). -/
def rawByte (raw : Vector Byte 15) (k : Nat) : Byte := raw[k]?.getD 0

/-- The OUT_RAW word m: byte lane n is `OUT_RAW[4m+n]`, little-endian (R52, R65 (c)). -/
def rawWord (raw : Vector Byte 15) (m : Nat) : Word :=
  rawByte raw (4 * m + 3) ++ rawByte raw (4 * m + 2) ++ rawByte raw (4 * m + 1) ++ rawByte raw (4 * m)

/-- The register space by word index (R52): 26 registers, 38 fields, 4 raw words, reserved, `CRC_TABLE`, `DEC_TABLE`,
reserved. -/
def State.registerWord (s : State) (i : Nat) : ReadValue :=
  if i < 26 then .value (s.plainRegister i)
  else if i < 64 then .value ((s.outputs.field[i - 26]?).getD 0)
  else if i < 68 then .value (rawWord s.outputs.raw (i - 64))
  else if i < 256 then .value 0
  else if i < 512 then
    if s.crcTableValid then .value ((tableAt s.crcTable (.ofNat 8 (i - 256))).zeroExtend 32) else .draw 16
  else if i < 768 then .value ((tableAt decTable (.ofNat 8 (i - 512))).zeroExtend 32)
  else .value 0

/-- What an access returns (R66, R67). Register addresses ignore bits 1:0. -/
def State.readPort (s : State) : ReadAccess → ReadValue
  | .register a => s.registerWord (a.toNat / 4)
  | .validity a => if a.toNat < s.n.toNat then .value ((s.validByte a.toNat).zeroExtend 32) else .value 0
  | .arena a =>
    if a.toNat < s.arenaSize then
      match s.arenaRead a.toNat with
      | some b => .value (b.zeroExtend 32)
      | none => .draw 8
    else .value 0

/-- A reader's step (R66): the value is handed out, a draw is fresh, and no state of the block changes. The port answers
also while the block is faulted. -/
def readStep (a : ReadAccess) (s : State) : Result :=
  match s.readPort a with
  | .value v => .next { s with readData := v }
  | .draw width => .next { s with readData := (Config.draw width s.draws).zeroExtend 32, draws := s.draws + 1 }

/-- The system address of an offset in one of the block's spaces, wherever the platform puts it (R77). -/
def systemAddress (space : PortSpace) (offset : Nat) : Nat := Config.baseAddresses space + offset

end Sys2Proof.Machine
end

