-- ==== Sys2Proof/Machine/Port.lean ====
section
/-! DEFINITION. The command port (40_buffer_commands.md R110, R111) and one turn of the block (60_exceptions.md R270, R272). -/

namespace Sys2Proof.Machine

/-- The command port accepts a word: not while faulted (R111), not while an ACQUIRE waits (R110). -/
def State.portOpen (s : State) : Bool := !s.faulted && s.consState != .waiting

/-- A word written to the command port: decoded and executed, or a decode fault (R98); at a closed port, not accepted
(93_implementation_defined.md U9; log entry 2). -/
def commandStep (w : Word) (s : State) : Result :=
  if s.portOpen then
    match decodeWord w with
    | .ok i => exec i s
    | .error e => .next (s.takeFault (decodeFault e) w)
  else .next s

/-- One turn (R270). -/
def takeTurn (t : Turn) (s : State) : Result :=
  match t with
  | .command w => commandStep w s
  | .wake => wakeStep s
  | .produce => produceStep s
  | .serial e => serialStep e s
  | .read a => readStep a s
  | .reset => .next s.resetLine

/-- The next turn that is offered, and the state without it. -/
def State.nextTurn (s : State) : Option (Turn × State) :=
  match s.pending with
  | [] => none
  | t :: rest => some (t, { s with pending := rest })

/-- A command word offered at the port as the very next turn. -/
def State.offer (s : State) (w : Word) : State := { s with pending := .command w :: s.pending }

end Sys2Proof.Machine
end

