-- ==== Sys2Proof/Machine/Step.lean ====
section
/-! DEFINITION. One step of the block: the next turn that is offered (60_exceptions.md R272; log entries 1, 3, 4). -/

namespace Sys2Proof.Machine

/-- One step: the next pending turn is taken. With nothing offered no agent has an enabled step, and the block stays as it
is (70_reset_and_hazards.md R283; log entry 3). -/
def step (s : State) : Host.Outcome State Fault Refusal :=
  match s.nextTurn with
  | none => .next s
  | some (t, s') => takeTurn t s'

/-- The instruction `w` of the opcode table, offered at the command port as the next turn (R90, R110; log entry 4). -/
def State.withFetchWord (s : State) (nbits w : Nat) : State := s.offer (tableWord nbits w)

end Sys2Proof.Machine
end

