-- ==== Sys2Proof/Safety.lean ====
section
/-! DEFINITION. What claims about runs are stated in: the invariants of the block, and the fair executions of 41_producer.md
R162. -/

namespace Sys2Proof.Machine

/-- Both byte spaces are in canonical form. -/
def State.MemoryForm (s : State) : Prop := Memory.wf s.arena = true ∧ Memory.flagsWf s.valid = true

/-- The ring is well shaped: the ranges of N, P and the indices (R8, R25), what is written lies in use (R26, R27), a flag
holds 0x00 or 0x01 (R26), the read count (R32), and the held slot's offset (R41). -/
structure State.RingInv (s : State) : Prop where
  sized : s.cfgDone = true → 1 ≤ s.n.toNat ∧ 1 ≤ s.p.toNat ∧ s.arenaSize ≤ Config.arenaMax
  indices : s.cfgDone = true → s.wIdx.toNat < s.n.toNat ∧ s.rIdx.toNat < s.n.toNat
  unconfigured : s.cfgDone = false → s.prodPhase = .stopped ∧ s.consState = .idle ∧ s.valid = [] ∧ s.arena = []
  flags : ∀ i, s.validByte i = 0 ∨ (s.validByte i = 1 ∧ i < s.n.toNat)
  bytes : ∀ a, s.written a = true → a < s.arenaSize
  count : s.rdCount ≤ s.p
  reading : s.prodPhase = .read → s.rdCount < s.p
  held : s.consState = .holding → s.acqOffset.toNat = s.slotBase s.rIdx

/-- Fields that the spec says read as 0: the upper bits of `LAST_TS` and `OUT_TS` (R48, R49), bits 7:5 of `OUT_ERR` (R49), and
the fault record while no fault has occurred (R251). -/
structure State.ReservedZero (s : State) : Prop where
  lastTs : s.validator.lastTs.toNat < 2 ^ 40
  outTs : s.outputs.ts.toNat < 2 ^ 40
  outErr : s.outputs.err.toNat < 2 ^ 5
  record : s.faulted = false → s.faultCode = 0 ∧ s.faultCmd = 0
  code : s.faultCode.toNat ≤ 10

/-- While `CRC_TABLE_VALID` is 1, `CRC_TABLE` is the table of `CRC_POLY` (R45, R175). -/
def State.TableInv (s : State) : Prop := s.crcTableValid = true → s.crcTable = tableOf s.crcPoly

/-- A stopped producer has a read count of 0: it holds after reset and every step keeps it (log entry 19). -/
def State.StoppedCount (s : State) : Prop := s.prodPhase = .stopped → s.rdCount = 0

/-- The invariant of every run. -/
structure State.Inv (s : State) : Prop where
  memory : s.MemoryForm
  ring : s.RingInv
  reserved : s.ReservedZero
  table : s.TableInv

/-- The registers of the block, without the model's own bookkeeping (`pending`, `draws`, `readData`). -/
def State.registers (s : State) : State := { s with pending := [], draws := 0, readData := 0 }

/-- A slot is held, not yet decoded, enabled, intact and fully written, and its 15 bytes are `pkt`: what DECODE needs to run
its checks on the slot's own bytes (R220, R222, R224). -/
structure State.HoldsPacket (s : State) (pkt : Packet) : Prop where
  configured : s.cfgDone = true
  holding : s.consState = .holding
  fresh : s.decoded = false
  size : s.p = 15
  enabled : s.config.variant = .b ∨ s.acqValid = true
  clean : s.acqDirty = false
  quiet : s.prodPhase ≠ .read ∨ s.wIdx ≠ s.rIdx
  inUse : s.acqOffset.toNat + 15 ≤ s.n.toNat * s.p.toNat
  bytes : ∀ k : Fin 15, s.arenaRead (s.acqOffset.toNat + k.val) = some pkt[k]

/-- One shift of the bitwise CRC: left, then the polynomial if the top bit was set (R183). -/
def bitwiseShift (poly crc : Half) : Half := if crc.getLsbD 15 then (crc <<< 1) ^^^ poly else crc <<< 1

/-- The bitwise CRC of R183: each byte enters at the top, then eight shifts. -/
def bitwiseCrc (poly seed : Half) (bytes : List Byte) : Half :=
  bytes.foldl (fun (crc : Half) (b : Byte) => Nat.iterate (bitwiseShift poly) 8 (crc ^^^ (b.zeroExtend 16 <<< 8 : Half))) seed

/-- An infinite execution: the turns taken and the states they lead through. -/
def Execution (turns : Nat → Turn) (r : Nat → State) : Prop := ∀ k, takeTurn (turns k) (r k) = .next (r (k + 1))

/-- The reset line stays quiet. -/
def NoReset (turns : Nat → Turn) : Prop := ∀ k, turns k ≠ .reset

/-- R162 (c) for the wake step: if it stays enabled it is taken. -/
def WakeFair (turns : Nat → Turn) (r : Nat → State) : Prop :=
  ∀ k, (∀ j, k ≤ j → (r j).wakeEnabled = true) → ∃ j, k ≤ j ∧ turns j = .wake

/-- The producer has an internal step enabled (R141, R142). -/
def State.internalEnabled (s : State) : Bool :=
  !s.faulted && (s.prodPhase == .check || s.prodPhase == .commit || s.prodPhase == .empty)

/-- R162 (c) for the producer's internal steps. -/
def InternalFair (turns : Nat → Turn) (r : Nat → State) : Prop :=
  ∀ k, (∀ j, k ≤ j → (r j).internalEnabled = true) → ∃ j, k ≤ j ∧ turns j = .produce

/-- An input that carries a read on or ends it (R162 (a)). -/
def Turn.feedsRead : Turn → Bool
  | .serial (.byte _) => true
  | .serial .timeout => true
  | .serial .error => true
  | .serial .quiet => false
  | .command _ => false
  | .wake => false
  | .produce => false
  | .read _ => false
  | .reset => false

/-- R162 (a): in READ the environment cannot withhold its inputs forever. -/
def ReadFair (turns : Nat → Turn) (r : Nat → State) : Prop :=
  ∀ k, (∀ j, k ≤ j → (r j).prodPhase = .read ∧ (r j).faulted = false) → ∃ j, k ≤ j ∧ (turns j).feedsRead = true

end Sys2Proof.Machine
end

