-- ==== Sys2Proof/Certificates/Slice0/Obligations.lean ====
section
/-! DEFINITION. The statements about ERF-CRB. Where a statement says what a step does, `t` is the next state; an equation
`t = { s with … }` is its frame: every register it does not name is unchanged, and a byte space it names by `t`'s own value is
described byte by byte beside it. -/

open Sys2Proof Sys2Proof.Machine

/-! ## Encoding (30_encoding.md) -/

/-- Decoding the word of an instruction gives the instruction back, every operand at every value (R92, R93, R98). -/
def Obligations.DecodeOfEncodeIsIdentity : Prop := ∀ i : Instr, decodeWord (encode i) = .ok i

/-- Every word is exactly one command, or an illegal opcode, or a word with reserved bits set: the spec's own inference (R97)
from R92, R94, R95, R96. -/
def Obligations.EveryWordIsOneCommandOrOneFault : Prop :=
  ∀ w : Word,
    (∃ i, decodeWord w = .ok i ∧ encode i = w ∧ ∀ j, encode j = w → j = i) ∨
    (decodeWord w = .error .illegalOpcode ∧ 0xB ≤ w.toNat / 2 ^ 28 ∧ ∀ j, encode j ≠ w) ∨
    (decodeWord w = .error .reservedBits ∧ w.toNat / 2 ^ 28 < 0xB ∧ ∀ j, encode j ≠ w)

/-- Each operand is read from its own bits of the word, as an unsigned number (R93). -/
def Obligations.OperandsAreReadInPlace : Prop :=
  ∀ w : Word,
    (∀ n p, decodeWord w = .ok (.cfg n p) → n.toNat = w.toNat / 2 ^ 16 % 2 ^ 12 ∧ p.toNat = w.toNat % 2 ^ 8) ∧
    (∀ poly, decodeWord w = .ok (.crcBuild poly) → poly.toNat = w.toNat % 2 ^ 16) ∧
    (∀ seed, decodeWord w = .ok (.crcSeed seed) → seed.toNat = w.toNat % 2 ^ 16) ∧
    (∀ addr len, decodeWord w = .ok (.crcCompute addr len) →
      addr.toNat = w.toNat % 2 ^ 16 ∧ len.toNat = w.toNat / 2 ^ 16 % 2 ^ 11 ∧ w.getLsbD 27 = false) ∧
    (∀ addr len, decodeWord w = .ok (.crcComputeInv addr len) →
      addr.toNat = w.toNat % 2 ^ 16 ∧ len.toNat = w.toNat / 2 ^ 16 % 2 ^ 11 ∧ w.getLsbD 27 = true)

/-- A word with opcode 0xB to 0xF raises ILLEGAL_OPCODE and has no other effect (R95). -/
def Obligations.IllegalOpcodesFault : Prop :=
  ∀ (s : State) (w : Word) (rest : List Turn),
    s.faulted = false → s.consState ≠ .waiting → s.pending = .command w :: rest → 0xB ≤ w.toNat / 2 ^ 28 →
      step s = .next { s with pending := rest, faulted := true, faultCode := 1, faultCmd := w }

/-- A legal opcode with a "must be 0" bit set raises RESERVED_BITS and has no other effect; format C has none (R96). -/
def Obligations.ReservedBitsFault : Prop :=
  (∀ (s : State) (w : Word) (rest : List Turn),
    s.faulted = false → s.consState ≠ .waiting → s.pending = .command w :: rest →
    ((w.toNat / 2 ^ 28 ∈ [0x0, 0x2, 0x3, 0x4, 0x5, 0x9, 0xA] ∧ w.toNat % 2 ^ 28 ≠ 0) ∨
     (w.toNat / 2 ^ 28 ∈ [0x6, 0x7] ∧ w.toNat / 2 ^ 16 % 2 ^ 12 ≠ 0) ∨
     (w.toNat / 2 ^ 28 = 0x1 ∧ w.toNat / 2 ^ 8 % 2 ^ 8 ≠ 0)) →
      step s = .next { s with pending := rest, faulted := true, faultCode := 2, faultCmd := w }) ∧
  (∀ w : Word, w.toNat / 2 ^ 28 = 0x8 → ∃ i, decodeWord w = .ok i)

/-- Words written out from R92 and R99 decode to what they stand for. -/
def Obligations.WrittenWordsDecode : Prop :=
  decodeWord 0x1002000F = .ok (.cfg 2 15) ∧ decodeWord 0x40000000 = .ok .acquire ∧
    decodeWord 0x60003D65 = .ok (.crcBuild 0x3D65) ∧ decodeWord 0x7000FFFF = .ok (.crcSeed 0xFFFF) ∧
    decodeWord 0x80090000 = .ok (.crcCompute 0 9) ∧ decodeWord 0x880D000E = .ok (.crcComputeInv 14 13) ∧
    decodeWord 0x90000000 = .ok .decode

/-- The assembler: a line with operands that fit has the word of R99's table, one with an operand that does not fit is an
assembly error; the pseudo-instructions expand as R100 says. -/
def Obligations.AssemblerWordsAndErrors : Prop :=
  (∀ n p : Nat, assemble (.cfg n p) =
    if n ≤ 4095 ∧ p ≤ 255 then some [BitVec.ofNat 32 (0x10000000 + n * 2 ^ 16 + p)] else none) ∧
  (∀ x : Nat, assemble (.crcBuild x) = if x ≤ 0xFFFF then some [BitVec.ofNat 32 (0x60000000 + x)] else none) ∧
  (∀ x : Nat, assemble (.crcSeed x) = if x ≤ 0xFFFF then some [BitVec.ofNat 32 (0x70000000 + x)] else none) ∧
  (∀ a l : Nat, assemble (.crcCompute a l) =
    if a ≤ 0xFFFF ∧ l ≤ 2047 then some [BitVec.ofNat 32 (0x80000000 + l * 2 ^ 16 + a)] else none) ∧
  (∀ a l : Nat, assemble (.crcComputeInv a l) =
    if a ≤ 0xFFFF ∧ l ≤ 2047 then some [BitVec.ofNat 32 (0x88000000 + l * 2 ^ 16 + a)] else none) ∧
  [Asm.nop, .start, .stop, .acquire, .release, .decode, .vreset].map assemble =
    [0x00000000, 0x20000000, 0x30000000, 0x40000000, 0x50000000, 0x90000000, 0xA0000000].map (fun w => some [w]) ∧
  assemble .cycle = some [0x40000000, 0x90000000, 0x50000000] ∧
  assemble .stateEnter = some [0x20000000, 0xA0000000] ∧
  (∀ poly seed : Nat, assemble (.crcSetup poly seed) =
    if poly ≤ 0xFFFF ∧ seed ≤ 0xFFFF
    then some [BitVec.ofNat 32 (0x60000000 + poly), BitVec.ofNat 32 (0x70000000 + seed)] else none) ∧
  (∀ base : Nat, assemble (.crcPkt base) = assemble (.crcComputeInv (base + 14) 13))

/-! ## The command port and the fault state (40_buffer_commands.md, 60_exceptions.md) -/

/-- A word offered at an open port is the instruction it decodes to: the step is that instruction's meaning, on the state
without the word. While an ACQUIRE waits the port is closed, and the word has no effect (R110; the model drops it, log entry
2). -/
def Obligations.StepRunsTheDecodedCommand : Prop :=
  ∀ (s : State) (w : Word) (i : Instr) (rest : List Turn),
    s.pending = .command w :: rest → decodeWord w = .ok i →
      (s.faulted = false → s.consState ≠ .waiting → step s = exec i { s with pending := rest }) ∧
      (s.consState = .waiting → step s = .next { s with pending := rest })

/-- While faulted the port accepts no word and no agent steps; the read port still answers (R111). That a turn offered to a
faulted block is used up is the model's choice (log entry 2). -/
def Obligations.FaultedBlockTakesNoStep : Prop :=
  ∀ (s : State) (u : Turn) (rest : List Turn), s.faulted = true → s.pending = u :: rest →
    ((∀ w, u = .command w → step s = .next { s with pending := rest }) ∧
     (u = .wake → step s = .next { s with pending := rest }) ∧
     (u = .produce → step s = .next { s with pending := rest }) ∧
     (∀ e, u = .serial e → step s = .next { s with pending := rest }) ∧
     (∀ a, u = .read a → ∃ v d, step s = .next { s with pending := rest, readData := v, draws := d }))

/-- A fault lasts until the reset line: along every run without reset, a faulted block keeps every register, the fault record
among them; the reset line clears the record (R259). -/
def Obligations.FaultLastsUntilReset : Prop :=
  (∀ (k : Nat) (s t : State), s.faulted = true → (∀ u ∈ s.pending, u ≠ Turn.reset) →
    Host.Core.run Sys2Proof.core k s = .next t → t.registers = s.registers) ∧
  (∀ (s : State) (rest : List Turn), s.pending = .reset :: rest →
    ∃ t, step s = .next t ∧ t.faulted = false ∧ t.faultCode = 0 ∧ t.faultCmd = 0)

/-- Faults are precise: a command that leaves the block faulted, from a state that was not, has written the three fault
registers and nothing else (R255; the spec infers the general form in R257). -/
def Obligations.FaultsArePrecise : Prop :=
  ∀ (i : Instr) (s t : State), exec i s = .next t → s.faulted = false → t.faulted = true →
    t.faultCmd = encode i ∧ t.faultCode ≠ 0 ∧ t = { s with faulted := true, faultCode := t.faultCode, faultCmd := encode i }

/-! ## Reset (70_reset_and_hazards.md) -/

/-- The reset line sets every register to its reset value, from any state (R280). -/
def Obligations.ResetLineSetsEveryRegister : Prop :=
  ∀ (s : State) (rest : List Turn), s.pending = .reset :: rest → ∃ t, step s = .next t ∧
    t.cfgDone = false ∧ t.n = 0 ∧ t.p = 0 ∧ t.wIdx = 0 ∧ t.rIdx = 0 ∧ t.rdCount = 0 ∧
    (∀ i, t.validByte i = 0) ∧ (∀ a, t.written a = false) ∧ t.event = false ∧ t.ovr = false ∧ t.ovrCount = 0 ∧
    t.prodPhase = .stopped ∧ t.consState = .idle ∧ t.acqOffset = 0 ∧ t.acqValid = false ∧ t.acqDirty = false ∧
    t.decoded = false ∧ t.crcPoly = 0 ∧ t.crcSeed = 0 ∧ t.crcResult = 0 ∧ t.crcTableValid = false ∧
    (∀ i : Fin 256, t.readPort (.register (.ofNat 12 (0x400 + 4 * i.val))) = .draw 16) ∧
    (∀ i : Fin 256, t.readPort (.register (.ofNat 12 (0x800 + 4 * i.val))) =
      .value (((tableOf 0x3D65)[i]).zeroExtend 32)) ∧
    t.validator = { streaming := false, lastSeq := 0, seqHave := false, lastSync := 0, syncHave := false, lastTs := 0 } ∧
    t.outputs.trigger = false ∧ t.outputs.err = 0 ∧ t.outputs.ts = 0 ∧ t.outputs.seq = 0 ∧ t.outputs.sync = 0 ∧
    t.outputs.crcRx = 0 ∧ t.outputs.crcCalc = 0 ∧ (∀ j : Fin 38, t.outputs.field[j] = 0) ∧
    (∀ k : Fin 15, t.outputs.raw[k] = 0) ∧
    t.faulted = false ∧ t.faultCode = 0 ∧ t.faultCmd = 0 ∧
    t.readPort (.register 0x000) = .value 0x45524601 ∧ t.config = s.config

/-- After reset nothing happens until a command arrives: turns without a command word leave every register as it was (the
spec infers it in R283; an input that is not enabled changes nothing, log entry 2). -/
def Obligations.NothingHappensBeforeACommand : Prop :=
  ∀ (k : Nat) (turns : List Turn) (t : State), (∀ u ∈ turns, ∀ w, u ≠ Turn.command w) →
    Host.Core.run Sys2Proof.core k { State.reset with pending := turns } = .next t →
      t.registers = State.reset.registers

/-- The reset state has the invariant of every run. -/
def Obligations.ResetHasTheInvariant : Prop := State.reset.Inv

/-! ## Ring-buffer commands (40_buffer_commands.md) -/

/-- NOP, the word 0, changes nothing, in every state; a set bit below its opcode is RESERVED_BITS (R112). -/
def Obligations.NopChangesNothing : Prop :=
  (∀ s : State, exec .nop s = .next s) ∧
  (∀ (s : State) (rest : List Turn), s.faulted = false → s.consState ≠ .waiting → s.pending = .command 0 :: rest →
    step s = .next { s with pending := rest }) ∧
  (∀ w : Word, w.toNat / 2 ^ 28 = 0x0 → w.toNat % 2 ^ 28 ≠ 0 → decodeWord w = .error .reservedBits)

/-- CFG, format F with opcode 1: BUSY, BAD_CONFIG, or a cleared ring of N slots of P bytes with nothing else changed (R116). -/
def Obligations.CfgFollowsItsRule : Prop :=
  ∀ (n : BitVec 12) (p : BitVec 8) (s : State),
    decodeWord (.ofNat 32 (0x10000000 + n.toNat * 2 ^ 16 + p.toNat)) = .ok (.cfg n p) ∧
    ((s.prodPhase ≠ .stopped ∨ s.consState ≠ .idle) →
      exec (.cfg n p) s = .next { s with faulted := true, faultCode := 5, faultCmd := encode (.cfg n p) }) ∧
    (s.prodPhase = .stopped → s.consState = .idle → (n = 0 ∨ p = 0 ∨ 65536 < n.toNat * p.toNat) →
      exec (.cfg n p) s = .next { s with faulted := true, faultCode := 4, faultCmd := encode (.cfg n p) }) ∧
    (s.prodPhase = .stopped → s.consState = .idle → n ≠ 0 → p ≠ 0 → n.toNat * p.toNat ≤ 65536 →
      ∃ t, exec (.cfg n p) s = .next t ∧ (∀ i, t.validByte i = 0) ∧ (∀ a, t.written a = false) ∧
        t = { s with n := n, p := p, valid := t.valid, arena := t.arena, wIdx := 0, rIdx := 0, rdCount := 0
                     event := false, ovr := false, ovrCount := 0, acqOffset := 0, acqValid := false
                     acqDirty := false, decoded := false, cfgDone := true })

/-- START: it begins the drain of a stopped producer and leaves a running one alone (R118). -/
def Obligations.StartFollowsItsRule : Prop :=
  ∀ s : State, decodeWord 0x20000000 = .ok .start ∧
    (s.cfgDone = false →
      exec .start s = .next { s with faulted := true, faultCode := 3, faultCmd := 0x20000000 }) ∧
    (s.cfgDone = true → s.prodPhase = .stopped →
      exec .start s = .next { s with prodPhase := .drain, rdCount := 0 }) ∧
    (s.cfgDone = true → s.prodPhase ≠ .stopped → exec .start s = .next s)

/-- STOP: the producer stops from any phase, and a pending commit or empty mark is abandoned; the flags, the indices, EVENT and
the bytes already stored stay as they are (R120). -/
def Obligations.StopFollowsItsRule : Prop :=
  ∀ s : State, decodeWord 0x30000000 = .ok .stop ∧ ∃ t, exec .stop s = .next t ∧ t = { s with prodPhase := .stopped, rdCount := 0 } ∧
    (∀ i, t.validByte i = s.validByte i) ∧ (∀ a, t.arenaRead a = s.arenaRead a)

/-- ACQUIRE, issue step: a valid slot is returned at once and EVENT kept; an invalid one clears EVENT and waits (R122). -/
def Obligations.AcquireFollowsItsRule : Prop :=
  ∀ s : State, decodeWord 0x40000000 = .ok .acquire ∧
    (s.cfgDone = false →
      exec .acquire s = .next { s with faulted := true, faultCode := 3, faultCmd := 0x40000000 }) ∧
    (s.cfgDone = true → s.consState ≠ .idle →
      exec .acquire s = .next { s with faulted := true, faultCode := 6, faultCmd := 0x40000000 }) ∧
    (s.cfgDone = true → s.consState = .idle → s.rIdx.toNat < s.n.toNat → s.validByte s.rIdx.toNat ≠ 0 →
      exec .acquire s = .next { s with
        acqOffset := .ofNat 16 (s.rIdx.toNat * s.p.toNat), acqValid := true, acqDirty := false, decoded := false
        consState := .holding }) ∧
    (s.cfgDone = true → s.consState = .idle → s.rIdx.toNat < s.n.toNat → s.validByte s.rIdx.toNat = 0 →
      exec .acquire s = .next { s with event := false, consState := .waiting })

/-- The wake step: enabled exactly while the consumer waits, EVENT is set and no fault is recorded; it clears EVENT and
returns the slot with the flag as it now is (R124, R126). That a wake turn which is not enabled is used up and changes nothing
is the model's choice (log entry 2). -/
def Obligations.WakeFollowsItsRule : Prop :=
  ∀ (s : State) (rest : List Turn), s.pending = .wake :: rest →
    (s.consState = .waiting → s.event = true → s.faulted = false → s.rIdx.toNat < s.n.toNat →
      step s = .next { s with
        pending := rest, event := false
        acqOffset := .ofNat 16 (s.rIdx.toNat * s.p.toNat), acqValid := decide (s.validByte s.rIdx.toNat ≠ 0)
        acqDirty := false, decoded := false, consState := .holding }) ∧
    ((s.consState ≠ .waiting ∨ s.event = false ∨ s.faulted = true) → step s = .next { s with pending := rest })

/-- RELEASE: its two faults; in variant A the slot is consumed only if it was valid at ACQUIRE and still is, in variant B
unconditionally (R128, R130, R131). -/
def Obligations.ReleaseFollowsItsRule : Prop :=
  ∀ s : State, decodeWord 0x50000000 = .ok .release ∧
    (s.cfgDone = false →
      exec .release s = .next { s with faulted := true, faultCode := 3, faultCmd := 0x50000000 }) ∧
    (s.cfgDone = true → s.consState ≠ .holding →
      exec .release s = .next { s with faulted := true, faultCode := 6, faultCmd := 0x50000000 }) ∧
    (s.MemoryForm → s.cfgDone = true → s.consState = .holding → s.rIdx.toNat < s.n.toNat →
      ((s.config.variant = .b ∨ (s.acqValid = true ∧ s.validByte s.rIdx.toNat ≠ 0)) →
        ∃ t, exec .release s = .next t ∧ t.rIdx.toNat = (s.rIdx.toNat + 1) % s.n.toNat ∧
          (∀ i, t.validByte i = if i = s.rIdx.toNat then 0 else s.validByte i) ∧
          t = { s with valid := t.valid, rIdx := t.rIdx, consState := .idle, acqDirty := false }) ∧
      (s.config.variant = .a → (s.acqValid = false ∨ s.validByte s.rIdx.toNat = 0) →
        exec .release s = .next { s with consState := .idle, acqDirty := false }))

/-! ## The CRC engine (42_crc.md) -/

/-- CRC.BUILD: the table of the polynomial, as the read port shows it, `CRC_POLY` and `CRC_TABLE_VALID`; nothing else. Its only
fault is RESERVED_BITS (R175). -/
def Obligations.CrcBuildFollowsItsRule : Prop :=
  (∀ w : Word, w.toNat / 2 ^ 28 = 0x6 → decodeWord w =
    if w.toNat / 2 ^ 16 % 2 ^ 12 = 0 then .ok (.crcBuild (.ofNat 16 w.toNat)) else .error .reservedBits) ∧
  ∀ (poly : Half) (s : State), ∃ t, exec (.crcBuild poly) s = .next t ∧
    (∀ i : Fin 256, t.crcTable[i] = (tableOf poly)[i] ∧
      t.readPort (.register (.ofNat 12 (0x400 + 4 * i.val))) = .value (((tableOf poly)[i]).zeroExtend 32)) ∧
    t = { s with crcTable := t.crcTable, crcPoly := poly, crcTableValid := true }

/-- CRC.SEED writes `CRC_SEED` and nothing else, in every state. Its only fault is RESERVED_BITS (R177). -/
def Obligations.CrcSeedFollowsItsRule : Prop :=
  (∀ w : Word, w.toNat / 2 ^ 28 = 0x7 → decodeWord w =
    if w.toNat / 2 ^ 16 % 2 ^ 12 = 0 then .ok (.crcSeed (.ofNat 16 w.toNat)) else .error .reservedBits) ∧
  ∀ (seed : Half) (s : State), exec (.crcSeed seed) s = .next { s with crcSeed := seed }

/-- CRC.COMPUTE over written bytes in range that the producer is not filling: `CRC_RESULT` is their CRC from `CRC_SEED`, the
bytes fed upwards from `addr`; nothing else changes. An empty range is not checked (R179, inv = 0). -/
def Obligations.CrcComputeForward : Prop :=
  ∀ (s : State) (addr : Half) (len : BitVec 11) (bytes : List Byte),
    s.cfgDone = true → s.crcTableValid = true → (len = 0 ∨ addr.toNat + len.toNat ≤ s.n.toNat * s.p.toNat) →
    bytes.length = len.toNat → (∀ (k : Nat) (h : k < bytes.length), s.arenaRead (addr.toNat + k) = some bytes[k]) →
    (s.prodPhase ≠ .read ∨ ∀ k, k < len.toNat →
      ¬ (s.wIdx.toNat * s.p.toNat ≤ addr.toNat + k ∧ addr.toNat + k < s.wIdx.toNat * s.p.toNat + s.p.toNat)) →
    exec (.crcCompute addr len) s = .next { s with crcResult := crcRun s.crcTable s.crcSeed bytes }

/-- CRC.COMPUTE.INV: the same, the bytes fed downwards from `addr` (R174, R179, inv = 1). -/
def Obligations.CrcComputeBackward : Prop :=
  ∀ (s : State) (addr : Half) (len : BitVec 11) (bytes : List Byte),
    s.cfgDone = true → s.crcTableValid = true →
    (len = 0 ∨ (addr.toNat < s.n.toNat * s.p.toNat ∧ len.toNat ≤ addr.toNat + 1)) →
    bytes.length = len.toNat → (∀ (k : Nat) (h : k < bytes.length), s.arenaRead (addr.toNat - k) = some bytes[k]) →
    (s.prodPhase ≠ .read ∨ ∀ k, k < len.toNat →
      ¬ (s.wIdx.toNat * s.p.toNat ≤ addr.toNat - k ∧ addr.toNat - k < s.wIdx.toNat * s.p.toNat + s.p.toNat)) →
    exec (.crcComputeInv addr len) s = .next { s with crcResult := crcRun s.crcTable s.crcSeed bytes }

/-- The faults of a compute, in their order: NOT_CONFIGURED, CRC_NO_TABLE, CRC_RANGE, READ_UNINIT (R179). -/
def Obligations.CrcComputeFaults : Prop :=
  ∀ (s : State) (addr : Half) (len : BitVec 11),
    (s.cfgDone = false →
      exec (.crcCompute addr len) s =
        .next { s with faulted := true, faultCode := 3, faultCmd := encode (.crcCompute addr len) } ∧
      exec (.crcComputeInv addr len) s =
        .next { s with faulted := true, faultCode := 3, faultCmd := encode (.crcComputeInv addr len) }) ∧
    (s.cfgDone = true → s.crcTableValid = false →
      exec (.crcCompute addr len) s =
        .next { s with faulted := true, faultCode := 7, faultCmd := encode (.crcCompute addr len) } ∧
      exec (.crcComputeInv addr len) s =
        .next { s with faulted := true, faultCode := 7, faultCmd := encode (.crcComputeInv addr len) }) ∧
    (s.cfgDone = true → s.crcTableValid = true → len ≠ 0 → s.n.toNat * s.p.toNat < addr.toNat + len.toNat →
      exec (.crcCompute addr len) s =
        .next { s with faulted := true, faultCode := 8, faultCmd := encode (.crcCompute addr len) }) ∧
    (s.cfgDone = true → s.crcTableValid = true → len ≠ 0 → (s.n.toNat * s.p.toNat ≤ addr.toNat ∨ addr.toNat + 1 < len.toNat) →
      exec (.crcComputeInv addr len) s =
        .next { s with faulted := true, faultCode := 8, faultCmd := encode (.crcComputeInv addr len) }) ∧
    (s.cfgDone = true → s.crcTableValid = true → addr.toNat + len.toNat ≤ s.n.toNat * s.p.toNat →
      (∃ k, k < len.toNat ∧ s.written (addr.toNat + k) = false) →
      exec (.crcCompute addr len) s =
        .next { s with faulted := true, faultCode := 9, faultCmd := encode (.crcCompute addr len) }) ∧
    (s.cfgDone = true → s.crcTableValid = true → addr.toNat < s.n.toNat * s.p.toNat → len.toNat ≤ addr.toNat + 1 →
      (∃ k, k < len.toNat ∧ s.written (addr.toNat - k) = false) →
      exec (.crcComputeInv addr len) s =
        .next { s with faulted := true, faultCode := 9, faultCmd := encode (.crcComputeInv addr len) })

/-- A compute that touches the slot the producer is filling runs, and its result is some 16-bit value: nothing is said of
which (R179, R180; `draws` is the model's own counter of free values, log entry 5). -/
def Obligations.LiveRangeGivesSomeResult : Prop :=
  ∀ (s : State) (addr : Half) (len : BitVec 11), s.cfgDone = true → s.crcTableValid = true → s.prodPhase = .read →
    (addr.toNat + len.toNat ≤ s.n.toNat * s.p.toNat → (∀ k, k < len.toNat → s.written (addr.toNat + k) = true) →
      (∃ k, k < len.toNat ∧ s.wIdx.toNat * s.p.toNat ≤ addr.toNat + k ∧
        addr.toNat + k < s.wIdx.toNat * s.p.toNat + s.p.toNat) →
      ∃ v, exec (.crcCompute addr len) s = .next { s with crcResult := v, draws := s.draws + 1 }) ∧
    (addr.toNat < s.n.toNat * s.p.toNat → len.toNat ≤ addr.toNat + 1 →
      (∀ k, k < len.toNat → s.written (addr.toNat - k) = true) →
      (∃ k, k < len.toNat ∧ s.wIdx.toNat * s.p.toNat ≤ addr.toNat - k ∧
        addr.toNat - k < s.wIdx.toNat * s.p.toNat + s.p.toNat) →
      ∃ v, exec (.crcComputeInv addr len) s = .next { s with crcResult := v, draws := s.draws + 1 })

/-- The round trip: the CRC appended high byte first leaves a zero residue, for every polynomial, seed and byte sequence;
so does a packet's own trailer after its payload, when it is right (the spec infers it in R181 from R171, R173, R65). -/
def Obligations.CrcRoundTripIsZero : Prop :=
  (∀ (poly seed : Half) (bytes : List Byte) (c : Half), c = crcRun (tableOf poly) seed bytes →
    crcRun (tableOf poly) seed (bytes ++ [c.extractLsb' 8 8, c.extractLsb' 0 8]) = 0) ∧
  (∀ pkt : Packet, packetTrailer pkt = packetCrc pkt →
    crcRun decTable 0xFFFF (payload pkt ++ [pkt[1], pkt[0]]) = 0)

/-- The table-driven CRC is the bitwise, most-significant-bit-first CRC (R183, which marks the general equality as general
knowledge). -/
def Obligations.TableCrcIsBitwiseCrc : Prop :=
  ∀ (poly seed : Half) (bytes : List Byte), crcRun (tableOf poly) seed bytes = bitwiseCrc poly seed bytes

/-- `PacketCrc` is the CRC, from 0xFFFF over the table of 0x3D65, of the 13 bytes the inverted range from slot offset 14
reads (R187). -/
def Obligations.PacketCrcIsTheInvertedRange : Prop :=
  ∀ (s : State) (base : Nat) (pkt : Packet), base + 14 ≤ 0xFFFF →
    (∀ k : Fin 15, s.arenaRead (base + k.val) = some pkt[k]) →
    ∃ bytes, s.arenaBytes (rangeAddrs true (.ofNat 16 (base + 14)) 13) = some bytes ∧
      packetCrc pkt = crcRun (tableOf 0x3D65) 0xFFFF bytes ∧
      bytes = [pkt[14], pkt[13], pkt[12], pkt[11], pkt[10], pkt[9], pkt[8], pkt[7], pkt[6], pkt[5], pkt[4], pkt[3], pkt[2]]

/-! ## The unpacker and validator (43_unpack_validate.md) -/

/-- Output bit m of field j is the packet bit its descriptor names, bits above its width are 0, and a field beyond the table
is 0 (R212), for every well-formed FIELD_TABLE. -/
def Obligations.UnpackPlacesEveryBit : Prop :=
  ∀ (c : Config) (pkt : Packet), c.wellFormed = true → ∀ (j : Fin 38) (m : Nat),
    ((unpack c.fieldTable pkt)[j]).getLsbD m =
      (((c.fieldTable[j.val]?).bind fun d => (d[m]?).map fun q => (pkt[q.byte]).getLsbD q.bit.val).getD false)

/-- The default table reverses its two 3-bit groups: GRP_R from `pkt[5][2:0]` (R217), GRP_S from `pkt[7][0]`, `pkt[6][7]`,
`pkt[6][6]` (R218). -/
def Obligations.DefaultTableReversesBothGroups : Prop :=
  ∀ pkt : Packet,
    (unpack Config.default.fieldTable pkt)[2] = (rev3 (pkt[5].extractLsb' 0 3)).zeroExtend 32 ∧
    (unpack Config.default.fieldTable pkt)[3] =
      (rev3 (pkt[7].extractLsb' 0 1 ++ pkt[6].extractLsb' 7 1 ++ pkt[6].extractLsb' 6 1)).zeroExtend 32

/-- DECODE's entry checks: NOT_CONFIGURED, PROTOCOL, DECODE_SIZE, in that order (R220). -/
def Obligations.DecodeEntryChecks : Prop :=
  ∀ s : State, decodeWord 0x90000000 = .ok .decode ∧
    (s.cfgDone = false →
      exec .decode s = .next { s with faulted := true, faultCode := 3, faultCmd := 0x90000000 }) ∧
    (s.cfgDone = true → (s.consState ≠ .holding ∨ s.decoded = true) →
      exec .decode s = .next { s with faulted := true, faultCode := 6, faultCmd := 0x90000000 }) ∧
    (s.cfgDone = true → s.consState = .holding → s.decoded = false → s.p ≠ 15 →
      exec .decode s = .next { s with faulted := true, faultCode := 10, faultCmd := 0x90000000 })

/-- The enable of DECODE: disabled (variant A, `ACQ_VALID = 0`), it clears the outputs, marks the slot decoded and changes
nothing else; enabled (variant A with `ACQ_VALID = 1`, variant B always), it decodes the packet (R224). -/
def Obligations.DisabledDecodeClearsTheOutputs : Prop :=
  (∀ (s : State) (pkt : Packet), s.HoldsPacket pkt → (s.config.variant = .a ∧ s.acqValid = true ∨ s.config.variant = .b) →
    ∃ t, exec .decode s = .next t ∧ t.outputs.raw = pkt ∧ t.validator.streaming = true ∧ t.decoded = true) ∧
  ∀ s : State, s.cfgDone = true → s.consState = .holding → s.decoded = false → s.p = 15 → s.config.variant = .a →
    s.acqValid = false →
    ∃ t, exec .decode s = .next t ∧ t = { s with outputs := t.outputs, decoded := true } ∧
      t.outputs.trigger = false ∧ t.outputs.err = 0 ∧ t.outputs.ts = 0 ∧ t.outputs.seq = 0 ∧ t.outputs.sync = 0 ∧
      t.outputs.crcRx = 0 ∧ t.outputs.crcCalc = 0 ∧ (∀ j : Fin 38, t.outputs.field[j] = 0) ∧
      (∀ k : Fin 15, t.outputs.raw[k] = 0)

/-- DECODE of an intact held packet outputs its fields, whatever the checks find, and changes only the outputs, the
validator and `DECODED` (R202, R204, R234, R236). -/
def Obligations.DecodeOutputsThePacket : Prop :=
  ∀ (s : State) (pkt : Packet), s.HoldsPacket pkt →
    ∃ t, exec .decode s = .next t ∧ t = { s with outputs := t.outputs, validator := t.validator, decoded := true } ∧
      t.outputs.ts.toNat = pkt[10].toNat + 2 ^ 8 * pkt[11].toNat + 2 ^ 16 * pkt[12].toNat + 2 ^ 24 * pkt[13].toNat +
        2 ^ 32 * pkt[14].toNat ∧
      t.outputs.seq.toNat = pkt[3].toNat % 4 ∧ t.outputs.sync = pkt[2] ∧
      t.outputs.crcRx.toNat = pkt[0].toNat + 2 ^ 8 * pkt[1].toNat ∧ t.outputs.crcCalc = packetCrc pkt ∧
      t.outputs.field = unpack s.config.fieldTable pkt ∧ t.outputs.raw = pkt ∧
      (t.outputs.trigger = false ↔
        packetCrc pkt ≠ packetTrailer pkt ∨ (pkt[2] ≠ 0x55 ∧ pkt[2] ≠ s.config.syncB)) ∧
      t.validator.streaming = true

/-- The checks of DECODE on an intact held packet: a CRC mismatch gives 0x01 and leaves the running state (R226); otherwise
the sequence check (R228), the sync check (R230) and, after a valid sync, the time check (R232). -/
def Obligations.DecodeChecksThePacket : Prop :=
  ∀ (s : State) (pkt : Packet), s.HoldsPacket pkt →
    (packetCrc pkt ≠ packetTrailer pkt →
      ∃ t, exec .decode s = .next t ∧ t.outputs.err = 0x01 ∧ t.outputs.trigger = false ∧
        t.validator = { s.validator with streaming := true }) ∧
    (packetCrc pkt = packetTrailer pkt → pkt[2] ≠ 0x55 → pkt[2] ≠ s.config.syncB →
      ∃ t, exec .decode s = .next t ∧ t.outputs.trigger = false ∧
        t.outputs.err = (if s.validator.seqHave = true ∧ pkt[3].toNat % 4 ≠ (s.validator.lastSeq.toNat + 1) % 4
          then 0x0A else 0x08) ∧
        t.validator = { s.validator with streaming := true, lastSeq := packetSeq pkt, seqHave := true }) ∧
    (packetCrc pkt = packetTrailer pkt → (pkt[2] = 0x55 ∨ pkt[2] = s.config.syncB) →
      ∃ t, exec .decode s = .next t ∧ t.outputs.trigger = true ∧
        t.outputs.err =
          (if s.validator.seqHave = true ∧ pkt[3].toNat % 4 ≠ (s.validator.lastSeq.toNat + 1) % 4 then 0x02 else 0) |||
          (if s.validator.syncHave = true ∧ pkt[2] = s.validator.lastSync then 0x04 else 0) |||
          (if s.validator.lastTs ≠ 0 ∧ (packetTs pkt).toNat ≤ s.validator.lastTs.toNat then 0x10 else 0) ∧
        t.validator =
          { streaming := true, lastSeq := packetSeq pkt, seqHave := true, lastSync := pkt[2], syncHave := true
            lastTs := if s.validator.lastTs ≠ 0 ∧ (packetTs pkt).toNat ≤ s.validator.lastTs.toNat
              then s.validator.lastTs else packetTs pkt })

/-- A torn DECODE runs: every output and the validator are those the checks give for some packet, of which nothing is said, and
the rest of the state is as after any DECODE. An unwritten byte in the slot faults READ_UNINIT first (R222; `draws` is the model's own counter
of free values, log entry 5). -/
def Obligations.TornDecodeUsesSomePacket : Prop :=
  ∀ s : State, s.cfgDone = true → s.consState = .holding → s.decoded = false → s.p = 15 →
    (s.config.variant = .b ∨ s.acqValid = true) → s.acqOffset.toNat + 15 ≤ s.n.toNat * s.p.toNat →
    ((∃ k, k < 15 ∧ s.written (s.acqOffset.toNat + k) = false) →
      exec .decode s = .next { s with faulted := true, faultCode := 9, faultCmd := 0x90000000 }) ∧
    ((∀ k, k < 15 → s.written (s.acqOffset.toNat + k) = true) →
      (s.acqDirty = true ∨ (s.prodPhase = .read ∧ s.wIdx = s.rIdx)) →
      ∃ pkt, exec .decode s = .next { s with
        outputs := packetOutputs s.config.fieldTable pkt (checkPacket s.config.syncB pkt s.validator)
        validator := { (checkPacket s.config.syncB pkt s.validator).validator with streaming := true }
        decoded := true, draws := s.draws + 15 })

/-- The values `OUT_ERR` can take on an enabled DECODE that does not fault, torn or not, and when `OUT_TRIGGER` is 0 (the spec
infers both in R242). -/
def Obligations.ReachableErrorCodes : Prop :=
  ∀ s t : State, exec .decode s = .next t → s.faulted = false → t.faulted = false →
    (s.config.variant = .b ∨ s.acqValid = true) →
    t.outputs.err ∈ [0x00, 0x01, 0x02, 0x04, 0x06, 0x08, 0x0A, 0x10, 0x12, 0x14, 0x16] ∧
    (t.outputs.trigger = false ↔ t.outputs.err ∈ [0x01, 0x08, 0x0A])

/-- VRESET resets the validator and nothing else, in every state; the next DECODE that does not fault sets none of 0x02,
0x04, 0x10. Its only fault is RESERVED_BITS (R240). -/
def Obligations.VresetMakesTheNextPacketFirst : Prop :=
  (∀ w : Word, w.toNat / 2 ^ 28 = 0xA → decodeWord w =
    if w.toNat % 2 ^ 28 = 0 then .ok .vreset else .error .reservedBits) ∧
  ∀ s : State, ∃ t, exec .vreset s = .next t ∧
    t = { s with validator :=
      { streaming := false, lastSeq := 0, seqHave := false, lastSync := 0, syncHave := false, lastTs := 0 } } ∧
    (∀ u, exec .decode t = .next u → s.faulted = false → u.faulted = false →
      u.outputs.err = 0x00 ∨ u.outputs.err = 0x01 ∨ u.outputs.err = 0x08)

/-! ## The producer (41_producer.md) -/

/-- DRAIN and RESYNC discard bytes and errors and leave on QUIET only (R144, R158). -/
def Obligations.DrainAndResyncWaitForQuiet : Prop :=
  ∀ (s : State) (e : SerialInput) (rest : List Turn), s.faulted = false → (s.prodPhase = .drain ∨ s.prodPhase = .resync) →
    s.pending = .serial e :: rest →
    ((∃ b, e = .byte b) ∨ e = .error → step s = .next { s with pending := rest }) ∧
    (e = .quiet → step s = .next { s with pending := rest, prodPhase := .check })

/-- CHECK reports an overrun when the slot to fill is still valid, and goes on to fill it (R146). -/
def Obligations.CheckReportsOverruns : Prop :=
  ∀ (s : State) (rest : List Turn), s.faulted = false → s.prodPhase = .check → s.pending = .produce :: rest →
    s.wIdx.toNat < s.n.toNat →
    (s.validByte s.wIdx.toNat = 0 → step s = .next { s with pending := rest, rdCount := 0, prodPhase := .read }) ∧
    (s.validByte s.wIdx.toNat ≠ 0 → ∃ t, step s = .next t ∧
      t.ovrCount.toNat = min (s.ovrCount.toNat + 1) 0xFFFFFFFF ∧
      t = { s with pending := rest, ovr := true, ovrCount := t.ovrCount, rdCount := 0, prodPhase := .read })

/-- The byte step of READ stores one byte at `W_IDX·P + RD_COUNT`, marks a held slot dirty, and ends the read with the last
byte (R150). -/
def Obligations.ReadStoresOneByte : Prop :=
  ∀ (s : State) (b : Byte) (rest : List Turn), s.faulted = false → s.prodPhase = .read → s.rdCount.toNat < s.p.toNat →
    s.wIdx.toNat < s.n.toNat → s.pending = .serial (.byte b) :: rest →
    ∃ t, step s = .next t ∧
      (∀ a, t.arenaRead a = if a = s.wIdx.toNat * s.p.toNat + s.rdCount.toNat then some b else s.arenaRead a) ∧
      t.rdCount.toNat = s.rdCount.toNat + 1 ∧
      t = { s with
        pending := rest, arena := t.arena, rdCount := t.rdCount
        acqDirty := if s.consState = .holding ∧ s.wIdx = s.rIdx then true else s.acqDirty
        prodPhase := if s.rdCount.toNat + 1 = s.p.toNat then .commit else .read }

/-- A read that ends early: a pure timeout goes to EMPTY, everything else to RESYNC; the flag, the index and the stored bytes
stay (R152). -/
def Obligations.EarlyEndOfARead : Prop :=
  ∀ (s : State) (e : SerialInput) (rest : List Turn), s.faulted = false → s.prodPhase = .read →
    s.rdCount.toNat < s.p.toNat → s.pending = .serial e :: rest →
    (e = .timeout → s.rdCount = 0 → step s = .next { s with pending := rest, prodPhase := .empty, rdCount := 0 }) ∧
    ((e = .timeout ∧ s.rdCount ≠ 0) ∨ e = .error →
      step s = .next { s with pending := rest, prodPhase := .resync, rdCount := 0 })

/-- COMMIT sets the flag, moves `W_IDX` on, and posts EVENT (R154). -/
def Obligations.CommitPublishesTheSlot : Prop :=
  ∀ (s : State) (rest : List Turn), s.MemoryForm → s.faulted = false → s.prodPhase = .commit →
    s.wIdx.toNat < s.n.toNat → s.pending = .produce :: rest →
    ∃ t, step s = .next t ∧ (∀ i, t.validByte i = if i = s.wIdx.toNat then 1 else s.validByte i) ∧
      t.wIdx.toNat = (s.wIdx.toNat + 1) % s.n.toNat ∧
      t = { s with pending := rest, valid := t.valid, wIdx := t.wIdx, event := true, prodPhase := .check }

/-- EMPTY: the empty mark of variant A posts EVENT and clears the flag (R156); variant B changes the phase only (R157). -/
def Obligations.EmptyMarksOnlyInVariantA : Prop :=
  ∀ (s : State) (rest : List Turn), s.MemoryForm → s.faulted = false → s.prodPhase = .empty →
    s.pending = .produce :: rest →
    (s.config.variant = .a → s.wIdx.toNat < s.n.toNat →
      ∃ t, step s = .next t ∧ (∀ i, t.validByte i = if i = s.wIdx.toNat then 0 else s.validByte i) ∧
        t = { s with pending := rest, valid := t.valid, event := true, prodPhase := .check }) ∧
    (s.config.variant = .b → step s = .next { s with pending := rest, prodPhase := .check })

/-- A whole read: CHECK, the P bytes of a packet, COMMIT leave exactly those bytes in the slot, in arrival order, its flag
true, and no other byte changed (from R146, R150, R154; the spec infers the consequence in R72). -/
def Obligations.WholeReadFillsTheSlot : Prop :=
  ∀ (s : State) (bytes : List Byte) (rest : List Turn), s.MemoryForm → s.faulted = false → s.prodPhase = .check →
    s.wIdx.toNat < s.n.toNat → bytes.length = s.p.toNat → 0 < s.p.toNat →
    s.pending = .produce :: (bytes.map fun b => Turn.serial (.byte b)) ++ .produce :: rest →
    ∃ t : State, Host.Core.run Sys2Proof.core (bytes.length + 2) s = .next t ∧
      (∀ (k : Nat) (h : k < bytes.length), t.arenaRead (s.wIdx.toNat * s.p.toNat + k) = some bytes[k]) ∧
      (∀ a, (a < s.wIdx.toNat * s.p.toNat ∨ s.wIdx.toNat * s.p.toNat + s.p.toNat ≤ a) →
        t.arenaRead a = s.arenaRead a) ∧
      (∀ i, t.validByte i = if i = s.wIdx.toNat then 1 else s.validByte i) ∧
      t.wIdx.toNat = (s.wIdx.toNat + 1) % s.n.toNat ∧ t.event = true ∧ t.prodPhase = .check ∧ t.pending = rest

/-- No lost wakeup. A COMMIT into slot `R_IDX` makes an ACQUIRE after it return at once: the flag it sets stays through every
turn that is no command and no reset, but for the empty mark of variant A on that same slot (R156), which takes the flag
away. A post while the consumer waits enables its wake step. An empty mark before ACQUIRE is no such post: ACQUIRE clears its
EVENT and waits (90_conflicts.md C7). From R122, R124, R154, R156; the spec infers it in R164 (b). -/
def Obligations.NoLostWakeup : Prop :=
  (∀ (s t : State) (rest : List Turn), s.MemoryForm → s.faulted = false → s.cfgDone = true →
    s.wIdx.toNat < s.n.toNat → s.rIdx.toNat < s.n.toNat → s.pending = .produce :: rest → step s = .next t →
    (s.prodPhase = .commit → s.wIdx = s.rIdx → s.consState = .idle →
      t.validByte s.rIdx.toNat ≠ 0 ∧
      ∃ u, exec .acquire t = .next u ∧ u.consState = .holding ∧ u.acqValid = true) ∧
    ((s.prodPhase = .commit ∨ (s.prodPhase = .empty ∧ s.config.variant = .a)) → s.consState = .waiting →
      t.wakeEnabled = true) ∧
    (s.prodPhase = .empty → s.config.variant = .a → s.wIdx = s.rIdx → s.consState = .idle →
      ∃ u, exec .acquire t = .next u ∧ u.consState = .waiting ∧ u.event = false)) ∧
  (∀ (s t : State) (u : Turn) (rest : List Turn), s.MemoryForm → s.pending = u :: rest → step s = .next t →
    (∀ w, u ≠ .command w) → u ≠ .reset →
    ¬ (s.prodPhase = .empty ∧ s.config.variant = .a ∧ s.wIdx = s.rIdx) → s.validByte s.rIdx.toNat ≠ 0 →
    t.rIdx = s.rIdx ∧ t.validByte s.rIdx.toNat ≠ 0)

/-- Resynchronization: from RESYNC (or DRAIN, or a stopped producer), along every run without a QUIET, no slot becomes valid
and no byte is stored (from R144, R152, R158; the spec infers it in R164 (c)). -/
def Obligations.NothingIsPublishedBeforeQuiet : Prop :=
  ∀ (k : Nat) (s t : State), s.MemoryForm → (s.prodPhase = .resync ∨ s.prodPhase = .drain ∨ s.prodPhase = .stopped) →
    (∀ u ∈ s.pending, u ≠ Turn.serial .quiet) → Host.Core.run Sys2Proof.core k s = .next t →
    (∀ i, t.validByte i ≠ 0 → s.validByte i ≠ 0) ∧ (∀ a b, t.arenaRead a = some b → s.arenaRead a = some b)

/-- An ACQUIRE that waits with the producer stopped and no post outstanding waits until reset (from R110, R124; the spec infers
it in R133 and R295). -/
def Obligations.WaitsUntilResetWithoutAPost : Prop :=
  ∀ (k : Nat) (s t : State), s.consState = .waiting → s.event = false → s.prodPhase = .stopped →
    (∀ u ∈ s.pending, u ≠ Turn.reset) → Host.Core.run Sys2Proof.core k s = .next t →
    t.consState = .waiting ∧ t.event = false ∧ t.prodPhase = .stopped

/-! ## The read port (20_memory.md) -/

/-- A read-port access always answers and changes no register of the block, also while it is faulted; a register address
selects its whole word, bits 1:0 ignored; a validity or arena address gives its byte, zero-extended (R66). -/
def Obligations.ReadPortHasNoSideEffect : Prop :=
  (∀ (s : State) (a : BitVec 12), s.readPort (.register a) = s.readPort (.register (a &&& 0xFFC))) ∧
  (∀ (s : State) (a : BitVec 12), a.toNat < s.n.toNat →
    s.readPort (.validity a) = .value ((s.validByte a.toNat).zeroExtend 32)) ∧
  (∀ (s : State) (a : Half) (b : Byte), a.toNat < s.n.toNat * s.p.toNat → s.arenaRead a.toNat = some b →
    s.readPort (.arena a) = .value (b.zeroExtend 32)) ∧
  ∀ (s : State) (a : ReadAccess) (rest : List Turn), s.pending = .read a :: rest →
    ∃ t, step s = .next t ∧ t.registers = s.registers ∧ t.pending = rest ∧
      (∀ v, s.readPort a = .value v → t.readData = v ∧ t.draws = s.draws)

/-- What the read port gives where nothing is defined: draws for unwritten arena bytes in use and an unbuilt table, 0 at
unused addresses (R67). Each access takes a draw of its own (log entry 5). -/
def Obligations.ReadPortAtUndefinedPlaces : Prop :=
  (∀ (s : State) (a : ReadAccess) (width : Nat) (rest : List Turn), s.pending = .read a :: rest →
    s.readPort a = .draw width → ∃ t, step s = .next t ∧ t.registers = s.registers ∧ t.draws = s.draws + 1) ∧
  ∀ s : State,
    (∀ a : Half, a.toNat < s.n.toNat * s.p.toNat → s.written a.toNat = false → s.readPort (.arena a) = .draw 8) ∧
    (∀ a : Half, s.n.toNat * s.p.toNat ≤ a.toNat → s.readPort (.arena a) = .value 0) ∧
    (∀ a : BitVec 12, s.n.toNat ≤ a.toNat → s.readPort (.validity a) = .value 0) ∧
    (s.crcTableValid = false → ∀ a : BitVec 12, 0x400 ≤ a.toNat → a.toNat < 0x800 →
      s.readPort (.register a) = .draw 16) ∧
    (∀ a : BitVec 12, (0x110 ≤ a.toNat ∧ a.toNat < 0x400) ∨ 0xC00 ≤ a.toNat → s.readPort (.register a) = .value 0)

/-- The STATUS word, bit by bit, with the numbers of the phases (R31) and of the consumer's states (R40), and its value after
reset (R51). -/
def Obligations.StatusWordLayout : Prop :=
  State.reset.status = 0 ∧
  ∀ s : State, s.readPort (.register 0x004) = .value s.status ∧
    s.status.getLsbD 0 = s.cfgDone ∧ s.status.getLsbD 1 = s.faulted ∧ s.status.getLsbD 2 = s.event ∧
    s.status.getLsbD 3 = s.acqValid ∧ s.status.getLsbD 4 = s.acqDirty ∧ s.status.getLsbD 5 = s.decoded ∧
    s.status.getLsbD 6 = s.ovr ∧ s.status.getLsbD 7 = s.crcTableValid ∧
    (s.status.extractLsb' 8 3).toNat = (match s.prodPhase with
      | .stopped => 0 | .drain => 1 | .check => 2 | .read => 3 | .commit => 4 | .empty => 5 | .resync => 6) ∧
    (s.status.extractLsb' 11 2).toNat = (match s.consState with | .idle => 0 | .waiting => 1 | .holding => 2) ∧
    s.status.getLsbD 13 = s.validator.streaming ∧ s.status.getLsbD 14 = s.validator.seqHave ∧
    s.status.getLsbD 15 = s.validator.syncHave ∧ s.status.getLsbD 16 = decide (s.config.variant = .b) ∧
    s.status.extractLsb' 17 15 = 0

/-- The register map: each register at its address, zero-extended, and its value after reset (R52). -/
def Obligations.RegisterMap : Prop :=
  (∀ a : BitVec 12, 4 ≤ a.toNat → a.toNat < 0x110 → State.reset.readPort (.register a) = .value 0) ∧
  ∀ s : State,
    (∀ a : BitVec 12, (0x110 ≤ a.toNat ∧ a.toNat < 0x400) ∨ 0xC00 ≤ a.toNat → s.readPort (.register a) = .value 0) ∧
    (s.crcTableValid = false → ∀ i : Fin 256, s.readPort (.register (.ofNat 12 (0x400 + 4 * i.val))) = .draw 16) ∧
    s.readPort (.register 0x004) = .value s.status ∧
    [0x000, 0x008, 0x00C, 0x010, 0x014, 0x018, 0x01C, 0x020, 0x024, 0x028, 0x02C, 0x030, 0x034, 0x038, 0x03C, 0x040,
      0x044, 0x048, 0x04C, 0x050, 0x054, 0x058, 0x05C, 0x060, 0x064].map (fun a => s.readPort (.register a)) =
    [Config.identity, s.faultCode.zeroExtend 32, s.faultCmd, s.n.zeroExtend 32, s.p.zeroExtend 32,
      s.wIdx.zeroExtend 32, s.rIdx.zeroExtend 32, s.rdCount.zeroExtend 32, s.acqOffset.zeroExtend 32, s.ovrCount,
      s.crcPoly.zeroExtend 32, s.crcSeed.zeroExtend 32, s.crcResult.zeroExtend 32, s.validator.lastSeq.zeroExtend 32,
      s.validator.lastSync.zeroExtend 32, s.validator.lastTs.extractLsb' 0 32, s.validator.lastTs.extractLsb' 32 32,
      if s.outputs.trigger then 1 else 0, s.outputs.err.zeroExtend 32, s.outputs.ts.extractLsb' 0 32,
      s.outputs.ts.extractLsb' 32 32, s.outputs.seq.zeroExtend 32, s.outputs.sync.zeroExtend 32,
      s.outputs.crcRx.zeroExtend 32, s.outputs.crcCalc.zeroExtend 32].map ReadValue.value ∧
    (∀ j : Fin 38, s.readPort (.register (.ofNat 12 (0x068 + 4 * j.val))) = .value s.outputs.field[j]) ∧
    (∀ k : Fin 15, ∃ v, s.readPort (.register (.ofNat 12 (0x100 + 4 * (k.val / 4)))) = .value v ∧
      v.extractLsb' (8 * (k.val % 4)) 8 = s.outputs.raw[k]) ∧
    (∃ v, s.readPort (.register 0x10C) = .value v ∧ v.extractLsb' 24 8 = 0) ∧
    (s.crcTableValid = true → ∀ i : Fin 256,
      s.readPort (.register (.ofNat 12 (0x400 + 4 * i.val))) = .value ((s.crcTable[i]).zeroExtend 32)) ∧
    (∀ i : Fin 256, s.readPort (.register (.ofNat 12 (0x800 + 4 * i.val))) =
      .value (((tableOf 0x3D65)[i]).zeroExtend 32))

/-! ## Who writes what, and the invariants of every step -/

/-- Which commands write which registers: a command that answers a next state changes the arena only if it is CFG, the flags
only if CFG or RELEASE, the producer's phase only if START or STOP, `RD_COUNT` only if CFG, START or STOP (where R36 and the
commands' own rules R116, R118, R120 disagree: log entry 19), the CRC registers only if a CRC command, the outputs only if
DECODE, the validator only if DECODE or VRESET (R26, R27, R36, R45, R48, R49). -/
def Obligations.CommandsWriteOnlyTheirOwn : Prop :=
  ∀ (i : Instr) (s t : State), exec i s = .next t →
    ((∀ n p, i ≠ .cfg n p) → t.arena = s.arena ∧ t.n = s.n ∧ t.p = s.p ∧ t.wIdx = s.wIdx ∧ t.cfgDone = s.cfgDone ∧
      t.ovr = s.ovr ∧ t.ovrCount = s.ovrCount) ∧
    ((∀ n p, i ≠ .cfg n p) → i ≠ .release → t.valid = s.valid ∧ t.rIdx = s.rIdx) ∧
    (i ≠ .start → i ≠ .stop → t.prodPhase = s.prodPhase) ∧
    ((∀ n p, i ≠ .cfg n p) → i ≠ .start → i ≠ .stop → t.rdCount = s.rdCount) ∧
    ((∀ poly, i ≠ .crcBuild poly) → t.crcTable = s.crcTable ∧ t.crcPoly = s.crcPoly ∧
      t.crcTableValid = s.crcTableValid) ∧
    ((∀ seed, i ≠ .crcSeed seed) → t.crcSeed = s.crcSeed) ∧
    ((∀ a l, i ≠ .crcCompute a l) → (∀ a l, i ≠ .crcComputeInv a l) → t.crcResult = s.crcResult) ∧
    (i ≠ .decode → t.outputs = s.outputs) ∧
    (i ≠ .decode → i ≠ .vreset → t.validator = s.validator) ∧
    t.config = s.config ∧ t.pending = s.pending ∧ t.readData = s.readData

/-- Every step keeps both byte spaces in canonical form: the sorted list without default entries, which is the model's own
representation of the arena and the flags (log entry 9), not the spec's. -/
def Obligations.StepKeepsTheMemoryForm : Prop :=
  ∀ s t : State, s.MemoryForm → step s = .next t → t.MemoryForm

/-- Every step keeps the ring well shaped: the indices below N, what is written inside N·P, flags 0x00 or 0x01, the read
count at most P, the held slot at its offset (R25, R26, R32, R164 (a)). -/
def Obligations.StepKeepsTheRing : Prop :=
  ∀ s t : State, s.MemoryForm → s.RingInv → step s = .next t → t.RingInv

/-- Every step keeps the reserved bits 0, the fault record clear while no fault has occurred (R48, R49, R251), and
`CRC_TABLE` the table of `CRC_POLY` while it is valid (R45). -/
def Obligations.StepKeepsReservedBitsAndTable : Prop :=
  ∀ s t : State, step s = .next t → (s.ReservedZero → t.ReservedZero) ∧ (s.TableInv → t.TableInv)

/-- With the ring well shaped the model never stops: every step answers a next state. This is the model's: a block fault is a
state (R255), and log entry 11 names the model's own stops. -/
def Obligations.WellShapedRingNeverStops : Prop :=
  ∀ s : State, s.RingInv → ∃ t, step s = .next t

/-! ## Liveness under the fairness of R162 -/

/-- A waiting consumer whose event is set wakes, in every execution without reset that is fair to the wake step (R124, R162
(c)). -/
def Obligations.PostedConsumerWakes : Prop :=
  ∀ (turns : Nat → Turn) (r : Nat → State) (k : Nat), Execution turns r → NoReset turns → WakeFair turns r →
    (r k).consState = .waiting → (r k).event = true → (r k).faulted = false →
    ∃ j, k < j ∧ (r j).consState = .holding

/-- The producer moves on: a read ends in every execution whose environment does not withhold its inputs, and an internal
phase ends in every execution that is fair to the producer's internal steps, unless the block faults (R162 (a), (c)). -/
def Obligations.ProducerPhasesEnd : Prop :=
  ∀ (turns : Nat → Turn) (r : Nat → State) (k : Nat), Execution turns r →
    (ReadFair turns r → (r k).RingInv → (r k).prodPhase = .read →
      ∃ j, k ≤ j ∧ ((r j).prodPhase ≠ .read ∨ (r j).faulted = true)) ∧
    (InternalFair turns r → ∀ phase, (phase = .check ∨ phase = .commit ∨ phase = .empty) → (r k).prodPhase = phase →
      ∃ j, k ≤ j ∧ ((r j).prodPhase ≠ phase ∨ (r j).faulted = true))
end

