-- ==== Sys2Proof/Laws/State.lean ====
section
/-! SUPPORT. For each named update of the state, each field after it: true by `rfl`, for `simp` to rewrite with, so that no proof
unfolds a record update. -/

namespace Sys2Proof.Machine

/-! ## `State.takeFault` -/

@[simp] theorem State.takeFault_config (s : State) (c : FaultCode) (w : Word) :
    (s.takeFault c w).config = s.config := rfl
@[simp] theorem State.takeFault_cfgDone (s : State) (c : FaultCode) (w : Word) :
    (s.takeFault c w).cfgDone = s.cfgDone := rfl
@[simp] theorem State.takeFault_n (s : State) (c : FaultCode) (w : Word) : (s.takeFault c w).n = s.n := rfl
@[simp] theorem State.takeFault_p (s : State) (c : FaultCode) (w : Word) : (s.takeFault c w).p = s.p := rfl
@[simp] theorem State.takeFault_wIdx (s : State) (c : FaultCode) (w : Word) : (s.takeFault c w).wIdx = s.wIdx := rfl
@[simp] theorem State.takeFault_rIdx (s : State) (c : FaultCode) (w : Word) : (s.takeFault c w).rIdx = s.rIdx := rfl
@[simp] theorem State.takeFault_valid (s : State) (c : FaultCode) (w : Word) :
    (s.takeFault c w).valid = s.valid := rfl
@[simp] theorem State.takeFault_arena (s : State) (c : FaultCode) (w : Word) :
    (s.takeFault c w).arena = s.arena := rfl
@[simp] theorem State.takeFault_event (s : State) (c : FaultCode) (w : Word) :
    (s.takeFault c w).event = s.event := rfl
@[simp] theorem State.takeFault_ovr (s : State) (c : FaultCode) (w : Word) : (s.takeFault c w).ovr = s.ovr := rfl
@[simp] theorem State.takeFault_ovrCount (s : State) (c : FaultCode) (w : Word) :
    (s.takeFault c w).ovrCount = s.ovrCount := rfl
@[simp] theorem State.takeFault_prodPhase (s : State) (c : FaultCode) (w : Word) :
    (s.takeFault c w).prodPhase = s.prodPhase := rfl
@[simp] theorem State.takeFault_rdCount (s : State) (c : FaultCode) (w : Word) :
    (s.takeFault c w).rdCount = s.rdCount := rfl
@[simp] theorem State.takeFault_consState (s : State) (c : FaultCode) (w : Word) :
    (s.takeFault c w).consState = s.consState := rfl
@[simp] theorem State.takeFault_acqOffset (s : State) (c : FaultCode) (w : Word) :
    (s.takeFault c w).acqOffset = s.acqOffset := rfl
@[simp] theorem State.takeFault_acqValid (s : State) (c : FaultCode) (w : Word) :
    (s.takeFault c w).acqValid = s.acqValid := rfl
@[simp] theorem State.takeFault_acqDirty (s : State) (c : FaultCode) (w : Word) :
    (s.takeFault c w).acqDirty = s.acqDirty := rfl
@[simp] theorem State.takeFault_decoded (s : State) (c : FaultCode) (w : Word) :
    (s.takeFault c w).decoded = s.decoded := rfl
@[simp] theorem State.takeFault_crcPoly (s : State) (c : FaultCode) (w : Word) :
    (s.takeFault c w).crcPoly = s.crcPoly := rfl
@[simp] theorem State.takeFault_crcSeed (s : State) (c : FaultCode) (w : Word) :
    (s.takeFault c w).crcSeed = s.crcSeed := rfl
@[simp] theorem State.takeFault_crcResult (s : State) (c : FaultCode) (w : Word) :
    (s.takeFault c w).crcResult = s.crcResult := rfl
@[simp] theorem State.takeFault_crcTable (s : State) (c : FaultCode) (w : Word) :
    (s.takeFault c w).crcTable = s.crcTable := rfl
@[simp] theorem State.takeFault_crcTableValid (s : State) (c : FaultCode) (w : Word) :
    (s.takeFault c w).crcTableValid = s.crcTableValid := rfl
@[simp] theorem State.takeFault_validator (s : State) (c : FaultCode) (w : Word) :
    (s.takeFault c w).validator = s.validator := rfl
@[simp] theorem State.takeFault_outputs (s : State) (c : FaultCode) (w : Word) :
    (s.takeFault c w).outputs = s.outputs := rfl
@[simp] theorem State.takeFault_faulted (s : State) (c : FaultCode) (w : Word) :
    (s.takeFault c w).faulted = true := rfl
@[simp] theorem State.takeFault_faultCode (s : State) (c : FaultCode) (w : Word) :
    (s.takeFault c w).faultCode = c.number := rfl
@[simp] theorem State.takeFault_faultCmd (s : State) (c : FaultCode) (w : Word) :
    (s.takeFault c w).faultCmd = w := rfl
@[simp] theorem State.takeFault_pending (s : State) (c : FaultCode) (w : Word) :
    (s.takeFault c w).pending = s.pending := rfl
@[simp] theorem State.takeFault_draws (s : State) (c : FaultCode) (w : Word) :
    (s.takeFault c w).draws = s.draws := rfl
@[simp] theorem State.takeFault_readData (s : State) (c : FaultCode) (w : Word) :
    (s.takeFault c w).readData = s.readData := rfl

/-! ## `State.configure` -/

@[simp] theorem State.configure_config (s : State) (n : BitVec 12) (p : BitVec 8) :
    (s.configure n p).config = s.config := rfl
@[simp] theorem State.configure_cfgDone (s : State) (n : BitVec 12) (p : BitVec 8) :
    (s.configure n p).cfgDone = true := rfl
@[simp] theorem State.configure_n (s : State) (n : BitVec 12) (p : BitVec 8) : (s.configure n p).n = n := rfl
@[simp] theorem State.configure_p (s : State) (n : BitVec 12) (p : BitVec 8) : (s.configure n p).p = p := rfl
@[simp] theorem State.configure_wIdx (s : State) (n : BitVec 12) (p : BitVec 8) : (s.configure n p).wIdx = 0 := rfl
@[simp] theorem State.configure_rIdx (s : State) (n : BitVec 12) (p : BitVec 8) : (s.configure n p).rIdx = 0 := rfl
@[simp] theorem State.configure_valid (s : State) (n : BitVec 12) (p : BitVec 8) : (s.configure n p).valid = [] := rfl
@[simp] theorem State.configure_arena (s : State) (n : BitVec 12) (p : BitVec 8) : (s.configure n p).arena = [] := rfl
@[simp] theorem State.configure_event (s : State) (n : BitVec 12) (p : BitVec 8) :
    (s.configure n p).event = false := rfl
@[simp] theorem State.configure_ovr (s : State) (n : BitVec 12) (p : BitVec 8) : (s.configure n p).ovr = false := rfl
@[simp] theorem State.configure_ovrCount (s : State) (n : BitVec 12) (p : BitVec 8) :
    (s.configure n p).ovrCount = 0 := rfl
@[simp] theorem State.configure_prodPhase (s : State) (n : BitVec 12) (p : BitVec 8) :
    (s.configure n p).prodPhase = s.prodPhase := rfl
@[simp] theorem State.configure_rdCount (s : State) (n : BitVec 12) (p : BitVec 8) :
    (s.configure n p).rdCount = 0 := rfl
@[simp] theorem State.configure_consState (s : State) (n : BitVec 12) (p : BitVec 8) :
    (s.configure n p).consState = s.consState := rfl
@[simp] theorem State.configure_acqOffset (s : State) (n : BitVec 12) (p : BitVec 8) :
    (s.configure n p).acqOffset = 0 := rfl
@[simp] theorem State.configure_acqValid (s : State) (n : BitVec 12) (p : BitVec 8) :
    (s.configure n p).acqValid = false := rfl
@[simp] theorem State.configure_acqDirty (s : State) (n : BitVec 12) (p : BitVec 8) :
    (s.configure n p).acqDirty = false := rfl
@[simp] theorem State.configure_decoded (s : State) (n : BitVec 12) (p : BitVec 8) :
    (s.configure n p).decoded = false := rfl
@[simp] theorem State.configure_crcPoly (s : State) (n : BitVec 12) (p : BitVec 8) :
    (s.configure n p).crcPoly = s.crcPoly := rfl
@[simp] theorem State.configure_crcSeed (s : State) (n : BitVec 12) (p : BitVec 8) :
    (s.configure n p).crcSeed = s.crcSeed := rfl
@[simp] theorem State.configure_crcResult (s : State) (n : BitVec 12) (p : BitVec 8) :
    (s.configure n p).crcResult = s.crcResult := rfl
@[simp] theorem State.configure_crcTable (s : State) (n : BitVec 12) (p : BitVec 8) :
    (s.configure n p).crcTable = s.crcTable := rfl
@[simp] theorem State.configure_crcTableValid (s : State) (n : BitVec 12) (p : BitVec 8) :
    (s.configure n p).crcTableValid = s.crcTableValid := rfl
@[simp] theorem State.configure_validator (s : State) (n : BitVec 12) (p : BitVec 8) :
    (s.configure n p).validator = s.validator := rfl
@[simp] theorem State.configure_outputs (s : State) (n : BitVec 12) (p : BitVec 8) :
    (s.configure n p).outputs = s.outputs := rfl
@[simp] theorem State.configure_faulted (s : State) (n : BitVec 12) (p : BitVec 8) :
    (s.configure n p).faulted = s.faulted := rfl
@[simp] theorem State.configure_faultCode (s : State) (n : BitVec 12) (p : BitVec 8) :
    (s.configure n p).faultCode = s.faultCode := rfl
@[simp] theorem State.configure_faultCmd (s : State) (n : BitVec 12) (p : BitVec 8) :
    (s.configure n p).faultCmd = s.faultCmd := rfl
@[simp] theorem State.configure_pending (s : State) (n : BitVec 12) (p : BitVec 8) :
    (s.configure n p).pending = s.pending := rfl
@[simp] theorem State.configure_draws (s : State) (n : BitVec 12) (p : BitVec 8) :
    (s.configure n p).draws = s.draws := rfl
@[simp] theorem State.configure_readData (s : State) (n : BitVec 12) (p : BitVec 8) :
    (s.configure n p).readData = s.readData := rfl

/-! ## `State.acquireReturn` -/

@[simp] theorem State.acquireReturn_config (s : State) : s.acquireReturn.config = s.config := rfl
@[simp] theorem State.acquireReturn_cfgDone (s : State) : s.acquireReturn.cfgDone = s.cfgDone := rfl
@[simp] theorem State.acquireReturn_n (s : State) : s.acquireReturn.n = s.n := rfl
@[simp] theorem State.acquireReturn_p (s : State) : s.acquireReturn.p = s.p := rfl
@[simp] theorem State.acquireReturn_wIdx (s : State) : s.acquireReturn.wIdx = s.wIdx := rfl
@[simp] theorem State.acquireReturn_rIdx (s : State) : s.acquireReturn.rIdx = s.rIdx := rfl
@[simp] theorem State.acquireReturn_valid (s : State) : s.acquireReturn.valid = s.valid := rfl
@[simp] theorem State.acquireReturn_arena (s : State) : s.acquireReturn.arena = s.arena := rfl
@[simp] theorem State.acquireReturn_event (s : State) : s.acquireReturn.event = s.event := rfl
@[simp] theorem State.acquireReturn_ovr (s : State) : s.acquireReturn.ovr = s.ovr := rfl
@[simp] theorem State.acquireReturn_ovrCount (s : State) : s.acquireReturn.ovrCount = s.ovrCount := rfl
@[simp] theorem State.acquireReturn_prodPhase (s : State) : s.acquireReturn.prodPhase = s.prodPhase := rfl
@[simp] theorem State.acquireReturn_rdCount (s : State) : s.acquireReturn.rdCount = s.rdCount := rfl
@[simp] theorem State.acquireReturn_consState (s : State) : s.acquireReturn.consState = .holding := rfl
@[simp] theorem State.acquireReturn_acqOffset (s : State) :
    s.acquireReturn.acqOffset = .ofNat 16 (s.slotBase s.rIdx) := rfl
@[simp] theorem State.acquireReturn_acqValid (s : State) : s.acquireReturn.acqValid = s.isValid s.rIdx.toNat := rfl
@[simp] theorem State.acquireReturn_acqDirty (s : State) : s.acquireReturn.acqDirty = false := rfl
@[simp] theorem State.acquireReturn_decoded (s : State) : s.acquireReturn.decoded = false := rfl
@[simp] theorem State.acquireReturn_crcPoly (s : State) : s.acquireReturn.crcPoly = s.crcPoly := rfl
@[simp] theorem State.acquireReturn_crcSeed (s : State) : s.acquireReturn.crcSeed = s.crcSeed := rfl
@[simp] theorem State.acquireReturn_crcResult (s : State) : s.acquireReturn.crcResult = s.crcResult := rfl
@[simp] theorem State.acquireReturn_crcTable (s : State) : s.acquireReturn.crcTable = s.crcTable := rfl
@[simp] theorem State.acquireReturn_crcTableValid (s : State) : s.acquireReturn.crcTableValid = s.crcTableValid := rfl
@[simp] theorem State.acquireReturn_validator (s : State) : s.acquireReturn.validator = s.validator := rfl
@[simp] theorem State.acquireReturn_outputs (s : State) : s.acquireReturn.outputs = s.outputs := rfl
@[simp] theorem State.acquireReturn_faulted (s : State) : s.acquireReturn.faulted = s.faulted := rfl
@[simp] theorem State.acquireReturn_faultCode (s : State) : s.acquireReturn.faultCode = s.faultCode := rfl
@[simp] theorem State.acquireReturn_faultCmd (s : State) : s.acquireReturn.faultCmd = s.faultCmd := rfl
@[simp] theorem State.acquireReturn_pending (s : State) : s.acquireReturn.pending = s.pending := rfl
@[simp] theorem State.acquireReturn_draws (s : State) : s.acquireReturn.draws = s.draws := rfl
@[simp] theorem State.acquireReturn_readData (s : State) : s.acquireReturn.readData = s.readData := rfl

/-! ## `State.setValid` -/

@[simp] theorem State.setValid_config (s : State) (i : Nat) (v : Byte) : (s.setValid i v).config = s.config := rfl
@[simp] theorem State.setValid_cfgDone (s : State) (i : Nat) (v : Byte) : (s.setValid i v).cfgDone = s.cfgDone := rfl
@[simp] theorem State.setValid_n (s : State) (i : Nat) (v : Byte) : (s.setValid i v).n = s.n := rfl
@[simp] theorem State.setValid_p (s : State) (i : Nat) (v : Byte) : (s.setValid i v).p = s.p := rfl
@[simp] theorem State.setValid_wIdx (s : State) (i : Nat) (v : Byte) : (s.setValid i v).wIdx = s.wIdx := rfl
@[simp] theorem State.setValid_rIdx (s : State) (i : Nat) (v : Byte) : (s.setValid i v).rIdx = s.rIdx := rfl
@[simp] theorem State.setValid_valid (s : State) (i : Nat) (v : Byte) :
    (s.setValid i v).valid = if v = unlistedFlag then s.valid.drop i else s.valid.put i v := rfl
@[simp] theorem State.setValid_arena (s : State) (i : Nat) (v : Byte) : (s.setValid i v).arena = s.arena := rfl
@[simp] theorem State.setValid_event (s : State) (i : Nat) (v : Byte) : (s.setValid i v).event = s.event := rfl
@[simp] theorem State.setValid_ovr (s : State) (i : Nat) (v : Byte) : (s.setValid i v).ovr = s.ovr := rfl
@[simp] theorem State.setValid_ovrCount (s : State) (i : Nat) (v : Byte) :
    (s.setValid i v).ovrCount = s.ovrCount := rfl
@[simp] theorem State.setValid_prodPhase (s : State) (i : Nat) (v : Byte) :
    (s.setValid i v).prodPhase = s.prodPhase := rfl
@[simp] theorem State.setValid_rdCount (s : State) (i : Nat) (v : Byte) : (s.setValid i v).rdCount = s.rdCount := rfl
@[simp] theorem State.setValid_consState (s : State) (i : Nat) (v : Byte) :
    (s.setValid i v).consState = s.consState := rfl
@[simp] theorem State.setValid_acqOffset (s : State) (i : Nat) (v : Byte) :
    (s.setValid i v).acqOffset = s.acqOffset := rfl
@[simp] theorem State.setValid_acqValid (s : State) (i : Nat) (v : Byte) :
    (s.setValid i v).acqValid = s.acqValid := rfl
@[simp] theorem State.setValid_acqDirty (s : State) (i : Nat) (v : Byte) :
    (s.setValid i v).acqDirty = s.acqDirty := rfl
@[simp] theorem State.setValid_decoded (s : State) (i : Nat) (v : Byte) : (s.setValid i v).decoded = s.decoded := rfl
@[simp] theorem State.setValid_crcPoly (s : State) (i : Nat) (v : Byte) : (s.setValid i v).crcPoly = s.crcPoly := rfl
@[simp] theorem State.setValid_crcSeed (s : State) (i : Nat) (v : Byte) : (s.setValid i v).crcSeed = s.crcSeed := rfl
@[simp] theorem State.setValid_crcResult (s : State) (i : Nat) (v : Byte) :
    (s.setValid i v).crcResult = s.crcResult := rfl
@[simp] theorem State.setValid_crcTable (s : State) (i : Nat) (v : Byte) :
    (s.setValid i v).crcTable = s.crcTable := rfl
@[simp] theorem State.setValid_crcTableValid (s : State) (i : Nat) (v : Byte) :
    (s.setValid i v).crcTableValid = s.crcTableValid := rfl
@[simp] theorem State.setValid_validator (s : State) (i : Nat) (v : Byte) :
    (s.setValid i v).validator = s.validator := rfl
@[simp] theorem State.setValid_outputs (s : State) (i : Nat) (v : Byte) : (s.setValid i v).outputs = s.outputs := rfl
@[simp] theorem State.setValid_faulted (s : State) (i : Nat) (v : Byte) : (s.setValid i v).faulted = s.faulted := rfl
@[simp] theorem State.setValid_faultCode (s : State) (i : Nat) (v : Byte) :
    (s.setValid i v).faultCode = s.faultCode := rfl
@[simp] theorem State.setValid_faultCmd (s : State) (i : Nat) (v : Byte) :
    (s.setValid i v).faultCmd = s.faultCmd := rfl
@[simp] theorem State.setValid_pending (s : State) (i : Nat) (v : Byte) : (s.setValid i v).pending = s.pending := rfl
@[simp] theorem State.setValid_draws (s : State) (i : Nat) (v : Byte) : (s.setValid i v).draws = s.draws := rfl
@[simp] theorem State.setValid_readData (s : State) (i : Nat) (v : Byte) :
    (s.setValid i v).readData = s.readData := rfl

/-! ## `State.arenaWrite` -/

@[simp] theorem State.arenaWrite_config (s : State) (a : Nat) (v : Byte) : (s.arenaWrite a v).config = s.config := rfl
@[simp] theorem State.arenaWrite_cfgDone (s : State) (a : Nat) (v : Byte) :
    (s.arenaWrite a v).cfgDone = s.cfgDone := rfl
@[simp] theorem State.arenaWrite_n (s : State) (a : Nat) (v : Byte) : (s.arenaWrite a v).n = s.n := rfl
@[simp] theorem State.arenaWrite_p (s : State) (a : Nat) (v : Byte) : (s.arenaWrite a v).p = s.p := rfl
@[simp] theorem State.arenaWrite_wIdx (s : State) (a : Nat) (v : Byte) : (s.arenaWrite a v).wIdx = s.wIdx := rfl
@[simp] theorem State.arenaWrite_rIdx (s : State) (a : Nat) (v : Byte) : (s.arenaWrite a v).rIdx = s.rIdx := rfl
@[simp] theorem State.arenaWrite_valid (s : State) (a : Nat) (v : Byte) : (s.arenaWrite a v).valid = s.valid := rfl
@[simp] theorem State.arenaWrite_arena (s : State) (a : Nat) (v : Byte) :
    (s.arenaWrite a v).arena = s.arena.put a v := rfl
@[simp] theorem State.arenaWrite_event (s : State) (a : Nat) (v : Byte) : (s.arenaWrite a v).event = s.event := rfl
@[simp] theorem State.arenaWrite_ovr (s : State) (a : Nat) (v : Byte) : (s.arenaWrite a v).ovr = s.ovr := rfl
@[simp] theorem State.arenaWrite_ovrCount (s : State) (a : Nat) (v : Byte) :
    (s.arenaWrite a v).ovrCount = s.ovrCount := rfl
@[simp] theorem State.arenaWrite_prodPhase (s : State) (a : Nat) (v : Byte) :
    (s.arenaWrite a v).prodPhase = s.prodPhase := rfl
@[simp] theorem State.arenaWrite_rdCount (s : State) (a : Nat) (v : Byte) :
    (s.arenaWrite a v).rdCount = s.rdCount := rfl
@[simp] theorem State.arenaWrite_consState (s : State) (a : Nat) (v : Byte) :
    (s.arenaWrite a v).consState = s.consState := rfl
@[simp] theorem State.arenaWrite_acqOffset (s : State) (a : Nat) (v : Byte) :
    (s.arenaWrite a v).acqOffset = s.acqOffset := rfl
@[simp] theorem State.arenaWrite_acqValid (s : State) (a : Nat) (v : Byte) :
    (s.arenaWrite a v).acqValid = s.acqValid := rfl
@[simp] theorem State.arenaWrite_acqDirty (s : State) (a : Nat) (v : Byte) :
    (s.arenaWrite a v).acqDirty = s.acqDirty := rfl
@[simp] theorem State.arenaWrite_decoded (s : State) (a : Nat) (v : Byte) :
    (s.arenaWrite a v).decoded = s.decoded := rfl
@[simp] theorem State.arenaWrite_crcPoly (s : State) (a : Nat) (v : Byte) :
    (s.arenaWrite a v).crcPoly = s.crcPoly := rfl
@[simp] theorem State.arenaWrite_crcSeed (s : State) (a : Nat) (v : Byte) :
    (s.arenaWrite a v).crcSeed = s.crcSeed := rfl
@[simp] theorem State.arenaWrite_crcResult (s : State) (a : Nat) (v : Byte) :
    (s.arenaWrite a v).crcResult = s.crcResult := rfl
@[simp] theorem State.arenaWrite_crcTable (s : State) (a : Nat) (v : Byte) :
    (s.arenaWrite a v).crcTable = s.crcTable := rfl
@[simp] theorem State.arenaWrite_crcTableValid (s : State) (a : Nat) (v : Byte) :
    (s.arenaWrite a v).crcTableValid = s.crcTableValid := rfl
@[simp] theorem State.arenaWrite_validator (s : State) (a : Nat) (v : Byte) :
    (s.arenaWrite a v).validator = s.validator := rfl
@[simp] theorem State.arenaWrite_outputs (s : State) (a : Nat) (v : Byte) :
    (s.arenaWrite a v).outputs = s.outputs := rfl
@[simp] theorem State.arenaWrite_faulted (s : State) (a : Nat) (v : Byte) :
    (s.arenaWrite a v).faulted = s.faulted := rfl
@[simp] theorem State.arenaWrite_faultCode (s : State) (a : Nat) (v : Byte) :
    (s.arenaWrite a v).faultCode = s.faultCode := rfl
@[simp] theorem State.arenaWrite_faultCmd (s : State) (a : Nat) (v : Byte) :
    (s.arenaWrite a v).faultCmd = s.faultCmd := rfl
@[simp] theorem State.arenaWrite_pending (s : State) (a : Nat) (v : Byte) :
    (s.arenaWrite a v).pending = s.pending := rfl
@[simp] theorem State.arenaWrite_draws (s : State) (a : Nat) (v : Byte) : (s.arenaWrite a v).draws = s.draws := rfl
@[simp] theorem State.arenaWrite_readData (s : State) (a : Nat) (v : Byte) :
    (s.arenaWrite a v).readData = s.readData := rfl

/-! ## `State.consumeSlot` -/

@[simp] theorem State.consumeSlot_config (s : State) : s.consumeSlot.config = s.config := rfl
@[simp] theorem State.consumeSlot_cfgDone (s : State) : s.consumeSlot.cfgDone = s.cfgDone := rfl
@[simp] theorem State.consumeSlot_n (s : State) : s.consumeSlot.n = s.n := rfl
@[simp] theorem State.consumeSlot_p (s : State) : s.consumeSlot.p = s.p := rfl
@[simp] theorem State.consumeSlot_wIdx (s : State) : s.consumeSlot.wIdx = s.wIdx := rfl
@[simp] theorem State.consumeSlot_rIdx (s : State) : s.consumeSlot.rIdx = s.nextSlot s.rIdx := rfl
@[simp] theorem State.consumeSlot_valid (s : State) : s.consumeSlot.valid = s.valid.drop s.rIdx.toNat := rfl
@[simp] theorem State.consumeSlot_arena (s : State) : s.consumeSlot.arena = s.arena := rfl
@[simp] theorem State.consumeSlot_event (s : State) : s.consumeSlot.event = s.event := rfl
@[simp] theorem State.consumeSlot_ovr (s : State) : s.consumeSlot.ovr = s.ovr := rfl
@[simp] theorem State.consumeSlot_ovrCount (s : State) : s.consumeSlot.ovrCount = s.ovrCount := rfl
@[simp] theorem State.consumeSlot_prodPhase (s : State) : s.consumeSlot.prodPhase = s.prodPhase := rfl
@[simp] theorem State.consumeSlot_rdCount (s : State) : s.consumeSlot.rdCount = s.rdCount := rfl
@[simp] theorem State.consumeSlot_consState (s : State) : s.consumeSlot.consState = s.consState := rfl
@[simp] theorem State.consumeSlot_acqOffset (s : State) : s.consumeSlot.acqOffset = s.acqOffset := rfl
@[simp] theorem State.consumeSlot_acqValid (s : State) : s.consumeSlot.acqValid = s.acqValid := rfl
@[simp] theorem State.consumeSlot_acqDirty (s : State) : s.consumeSlot.acqDirty = s.acqDirty := rfl
@[simp] theorem State.consumeSlot_decoded (s : State) : s.consumeSlot.decoded = s.decoded := rfl
@[simp] theorem State.consumeSlot_crcPoly (s : State) : s.consumeSlot.crcPoly = s.crcPoly := rfl
@[simp] theorem State.consumeSlot_crcSeed (s : State) : s.consumeSlot.crcSeed = s.crcSeed := rfl
@[simp] theorem State.consumeSlot_crcResult (s : State) : s.consumeSlot.crcResult = s.crcResult := rfl
@[simp] theorem State.consumeSlot_crcTable (s : State) : s.consumeSlot.crcTable = s.crcTable := rfl
@[simp] theorem State.consumeSlot_crcTableValid (s : State) : s.consumeSlot.crcTableValid = s.crcTableValid := rfl
@[simp] theorem State.consumeSlot_validator (s : State) : s.consumeSlot.validator = s.validator := rfl
@[simp] theorem State.consumeSlot_outputs (s : State) : s.consumeSlot.outputs = s.outputs := rfl
@[simp] theorem State.consumeSlot_faulted (s : State) : s.consumeSlot.faulted = s.faulted := rfl
@[simp] theorem State.consumeSlot_faultCode (s : State) : s.consumeSlot.faultCode = s.faultCode := rfl
@[simp] theorem State.consumeSlot_faultCmd (s : State) : s.consumeSlot.faultCmd = s.faultCmd := rfl
@[simp] theorem State.consumeSlot_pending (s : State) : s.consumeSlot.pending = s.pending := rfl
@[simp] theorem State.consumeSlot_draws (s : State) : s.consumeSlot.draws = s.draws := rfl
@[simp] theorem State.consumeSlot_readData (s : State) : s.consumeSlot.readData = s.readData := rfl

/-! ## `State.storeByte` -/

@[simp] theorem State.storeByte_config (s : State) (b : Byte) : (s.storeByte b).config = s.config := rfl
@[simp] theorem State.storeByte_cfgDone (s : State) (b : Byte) : (s.storeByte b).cfgDone = s.cfgDone := rfl
@[simp] theorem State.storeByte_n (s : State) (b : Byte) : (s.storeByte b).n = s.n := rfl
@[simp] theorem State.storeByte_p (s : State) (b : Byte) : (s.storeByte b).p = s.p := rfl
@[simp] theorem State.storeByte_wIdx (s : State) (b : Byte) : (s.storeByte b).wIdx = s.wIdx := rfl
@[simp] theorem State.storeByte_rIdx (s : State) (b : Byte) : (s.storeByte b).rIdx = s.rIdx := rfl
@[simp] theorem State.storeByte_valid (s : State) (b : Byte) : (s.storeByte b).valid = s.valid := rfl
@[simp] theorem State.storeByte_arena (s : State) (b : Byte) :
    (s.storeByte b).arena = s.arena.put (s.slotBase s.wIdx + s.rdCount.toNat) b := rfl
@[simp] theorem State.storeByte_event (s : State) (b : Byte) : (s.storeByte b).event = s.event := rfl
@[simp] theorem State.storeByte_ovr (s : State) (b : Byte) : (s.storeByte b).ovr = s.ovr := rfl
@[simp] theorem State.storeByte_ovrCount (s : State) (b : Byte) : (s.storeByte b).ovrCount = s.ovrCount := rfl
@[simp] theorem State.storeByte_prodPhase (s : State) (b : Byte) :
    (s.storeByte b).prodPhase = if s.rdCount + 1 = s.p then .commit else s.prodPhase := rfl
@[simp] theorem State.storeByte_rdCount (s : State) (b : Byte) : (s.storeByte b).rdCount = s.rdCount + 1 := rfl
@[simp] theorem State.storeByte_consState (s : State) (b : Byte) : (s.storeByte b).consState = s.consState := rfl
@[simp] theorem State.storeByte_acqOffset (s : State) (b : Byte) : (s.storeByte b).acqOffset = s.acqOffset := rfl
@[simp] theorem State.storeByte_acqValid (s : State) (b : Byte) : (s.storeByte b).acqValid = s.acqValid := rfl
@[simp] theorem State.storeByte_acqDirty (s : State) (b : Byte) :
    (s.storeByte b).acqDirty = (s.acqDirty || (s.consState == .holding && s.wIdx == s.rIdx)) := rfl
@[simp] theorem State.storeByte_decoded (s : State) (b : Byte) : (s.storeByte b).decoded = s.decoded := rfl
@[simp] theorem State.storeByte_crcPoly (s : State) (b : Byte) : (s.storeByte b).crcPoly = s.crcPoly := rfl
@[simp] theorem State.storeByte_crcSeed (s : State) (b : Byte) : (s.storeByte b).crcSeed = s.crcSeed := rfl
@[simp] theorem State.storeByte_crcResult (s : State) (b : Byte) : (s.storeByte b).crcResult = s.crcResult := rfl
@[simp] theorem State.storeByte_crcTable (s : State) (b : Byte) : (s.storeByte b).crcTable = s.crcTable := rfl
@[simp] theorem State.storeByte_crcTableValid (s : State) (b : Byte) :
    (s.storeByte b).crcTableValid = s.crcTableValid := rfl
@[simp] theorem State.storeByte_validator (s : State) (b : Byte) : (s.storeByte b).validator = s.validator := rfl
@[simp] theorem State.storeByte_outputs (s : State) (b : Byte) : (s.storeByte b).outputs = s.outputs := rfl
@[simp] theorem State.storeByte_faulted (s : State) (b : Byte) : (s.storeByte b).faulted = s.faulted := rfl
@[simp] theorem State.storeByte_faultCode (s : State) (b : Byte) : (s.storeByte b).faultCode = s.faultCode := rfl
@[simp] theorem State.storeByte_faultCmd (s : State) (b : Byte) : (s.storeByte b).faultCmd = s.faultCmd := rfl
@[simp] theorem State.storeByte_pending (s : State) (b : Byte) : (s.storeByte b).pending = s.pending := rfl
@[simp] theorem State.storeByte_draws (s : State) (b : Byte) : (s.storeByte b).draws = s.draws := rfl
@[simp] theorem State.storeByte_readData (s : State) (b : Byte) : (s.storeByte b).readData = s.readData := rfl

/-! ## `State.decodePacket` -/

@[simp] theorem State.decodePacket_config (s : State) (pkt : Packet) : (s.decodePacket pkt).config = s.config := rfl
@[simp] theorem State.decodePacket_cfgDone (s : State) (pkt : Packet) :
    (s.decodePacket pkt).cfgDone = s.cfgDone := rfl
@[simp] theorem State.decodePacket_n (s : State) (pkt : Packet) : (s.decodePacket pkt).n = s.n := rfl
@[simp] theorem State.decodePacket_p (s : State) (pkt : Packet) : (s.decodePacket pkt).p = s.p := rfl
@[simp] theorem State.decodePacket_wIdx (s : State) (pkt : Packet) : (s.decodePacket pkt).wIdx = s.wIdx := rfl
@[simp] theorem State.decodePacket_rIdx (s : State) (pkt : Packet) : (s.decodePacket pkt).rIdx = s.rIdx := rfl
@[simp] theorem State.decodePacket_valid (s : State) (pkt : Packet) : (s.decodePacket pkt).valid = s.valid := rfl
@[simp] theorem State.decodePacket_arena (s : State) (pkt : Packet) : (s.decodePacket pkt).arena = s.arena := rfl
@[simp] theorem State.decodePacket_event (s : State) (pkt : Packet) : (s.decodePacket pkt).event = s.event := rfl
@[simp] theorem State.decodePacket_ovr (s : State) (pkt : Packet) : (s.decodePacket pkt).ovr = s.ovr := rfl
@[simp] theorem State.decodePacket_ovrCount (s : State) (pkt : Packet) :
    (s.decodePacket pkt).ovrCount = s.ovrCount := rfl
@[simp] theorem State.decodePacket_prodPhase (s : State) (pkt : Packet) :
    (s.decodePacket pkt).prodPhase = s.prodPhase := rfl
@[simp] theorem State.decodePacket_rdCount (s : State) (pkt : Packet) :
    (s.decodePacket pkt).rdCount = s.rdCount := rfl
@[simp] theorem State.decodePacket_consState (s : State) (pkt : Packet) :
    (s.decodePacket pkt).consState = s.consState := rfl
@[simp] theorem State.decodePacket_acqOffset (s : State) (pkt : Packet) :
    (s.decodePacket pkt).acqOffset = s.acqOffset := rfl
@[simp] theorem State.decodePacket_acqValid (s : State) (pkt : Packet) :
    (s.decodePacket pkt).acqValid = s.acqValid := rfl
@[simp] theorem State.decodePacket_acqDirty (s : State) (pkt : Packet) :
    (s.decodePacket pkt).acqDirty = s.acqDirty := rfl
@[simp] theorem State.decodePacket_decoded (s : State) (pkt : Packet) : (s.decodePacket pkt).decoded = true := rfl
@[simp] theorem State.decodePacket_crcPoly (s : State) (pkt : Packet) :
    (s.decodePacket pkt).crcPoly = s.crcPoly := rfl
@[simp] theorem State.decodePacket_crcSeed (s : State) (pkt : Packet) :
    (s.decodePacket pkt).crcSeed = s.crcSeed := rfl
@[simp] theorem State.decodePacket_crcResult (s : State) (pkt : Packet) :
    (s.decodePacket pkt).crcResult = s.crcResult := rfl
@[simp] theorem State.decodePacket_crcTable (s : State) (pkt : Packet) :
    (s.decodePacket pkt).crcTable = s.crcTable := rfl
@[simp] theorem State.decodePacket_crcTableValid (s : State) (pkt : Packet) :
    (s.decodePacket pkt).crcTableValid = s.crcTableValid := rfl
@[simp] theorem State.decodePacket_validator (s : State) (pkt : Packet) :
    (s.decodePacket pkt).validator = { (checkPacket s.config.syncB pkt s.validator).validator with streaming := true } := rfl
@[simp] theorem State.decodePacket_outputs (s : State) (pkt : Packet) :
    (s.decodePacket pkt).outputs = packetOutputs s.config.fieldTable pkt (checkPacket s.config.syncB pkt s.validator) := rfl
@[simp] theorem State.decodePacket_faulted (s : State) (pkt : Packet) :
    (s.decodePacket pkt).faulted = s.faulted := rfl
@[simp] theorem State.decodePacket_faultCode (s : State) (pkt : Packet) :
    (s.decodePacket pkt).faultCode = s.faultCode := rfl
@[simp] theorem State.decodePacket_faultCmd (s : State) (pkt : Packet) :
    (s.decodePacket pkt).faultCmd = s.faultCmd := rfl
@[simp] theorem State.decodePacket_pending (s : State) (pkt : Packet) :
    (s.decodePacket pkt).pending = s.pending := rfl
@[simp] theorem State.decodePacket_draws (s : State) (pkt : Packet) : (s.decodePacket pkt).draws = s.draws := rfl
@[simp] theorem State.decodePacket_readData (s : State) (pkt : Packet) :
    (s.decodePacket pkt).readData = s.readData := rfl

/-! ## `State.decodeDisabled` -/

@[simp] theorem State.decodeDisabled_config (s : State) : s.decodeDisabled.config = s.config := rfl
@[simp] theorem State.decodeDisabled_cfgDone (s : State) : s.decodeDisabled.cfgDone = s.cfgDone := rfl
@[simp] theorem State.decodeDisabled_n (s : State) : s.decodeDisabled.n = s.n := rfl
@[simp] theorem State.decodeDisabled_p (s : State) : s.decodeDisabled.p = s.p := rfl
@[simp] theorem State.decodeDisabled_wIdx (s : State) : s.decodeDisabled.wIdx = s.wIdx := rfl
@[simp] theorem State.decodeDisabled_rIdx (s : State) : s.decodeDisabled.rIdx = s.rIdx := rfl
@[simp] theorem State.decodeDisabled_valid (s : State) : s.decodeDisabled.valid = s.valid := rfl
@[simp] theorem State.decodeDisabled_arena (s : State) : s.decodeDisabled.arena = s.arena := rfl
@[simp] theorem State.decodeDisabled_event (s : State) : s.decodeDisabled.event = s.event := rfl
@[simp] theorem State.decodeDisabled_ovr (s : State) : s.decodeDisabled.ovr = s.ovr := rfl
@[simp] theorem State.decodeDisabled_ovrCount (s : State) : s.decodeDisabled.ovrCount = s.ovrCount := rfl
@[simp] theorem State.decodeDisabled_prodPhase (s : State) : s.decodeDisabled.prodPhase = s.prodPhase := rfl
@[simp] theorem State.decodeDisabled_rdCount (s : State) : s.decodeDisabled.rdCount = s.rdCount := rfl
@[simp] theorem State.decodeDisabled_consState (s : State) : s.decodeDisabled.consState = s.consState := rfl
@[simp] theorem State.decodeDisabled_acqOffset (s : State) : s.decodeDisabled.acqOffset = s.acqOffset := rfl
@[simp] theorem State.decodeDisabled_acqValid (s : State) : s.decodeDisabled.acqValid = s.acqValid := rfl
@[simp] theorem State.decodeDisabled_acqDirty (s : State) : s.decodeDisabled.acqDirty = s.acqDirty := rfl
@[simp] theorem State.decodeDisabled_decoded (s : State) : s.decodeDisabled.decoded = true := rfl
@[simp] theorem State.decodeDisabled_crcPoly (s : State) : s.decodeDisabled.crcPoly = s.crcPoly := rfl
@[simp] theorem State.decodeDisabled_crcSeed (s : State) : s.decodeDisabled.crcSeed = s.crcSeed := rfl
@[simp] theorem State.decodeDisabled_crcResult (s : State) : s.decodeDisabled.crcResult = s.crcResult := rfl
@[simp] theorem State.decodeDisabled_crcTable (s : State) : s.decodeDisabled.crcTable = s.crcTable := rfl
@[simp] theorem State.decodeDisabled_crcTableValid (s : State) :
    s.decodeDisabled.crcTableValid = s.crcTableValid := rfl
@[simp] theorem State.decodeDisabled_validator (s : State) : s.decodeDisabled.validator = s.validator := rfl
@[simp] theorem State.decodeDisabled_outputs (s : State) : s.decodeDisabled.outputs = .zero := rfl
@[simp] theorem State.decodeDisabled_faulted (s : State) : s.decodeDisabled.faulted = s.faulted := rfl
@[simp] theorem State.decodeDisabled_faultCode (s : State) : s.decodeDisabled.faultCode = s.faultCode := rfl
@[simp] theorem State.decodeDisabled_faultCmd (s : State) : s.decodeDisabled.faultCmd = s.faultCmd := rfl
@[simp] theorem State.decodeDisabled_pending (s : State) : s.decodeDisabled.pending = s.pending := rfl
@[simp] theorem State.decodeDisabled_draws (s : State) : s.decodeDisabled.draws = s.draws := rfl
@[simp] theorem State.decodeDisabled_readData (s : State) : s.decodeDisabled.readData = s.readData := rfl

/-! ## `State.offer` -/

@[simp] theorem State.offer_config (s : State) (w : Word) : (s.offer w).config = s.config := rfl
@[simp] theorem State.offer_cfgDone (s : State) (w : Word) : (s.offer w).cfgDone = s.cfgDone := rfl
@[simp] theorem State.offer_n (s : State) (w : Word) : (s.offer w).n = s.n := rfl
@[simp] theorem State.offer_p (s : State) (w : Word) : (s.offer w).p = s.p := rfl
@[simp] theorem State.offer_wIdx (s : State) (w : Word) : (s.offer w).wIdx = s.wIdx := rfl
@[simp] theorem State.offer_rIdx (s : State) (w : Word) : (s.offer w).rIdx = s.rIdx := rfl
@[simp] theorem State.offer_valid (s : State) (w : Word) : (s.offer w).valid = s.valid := rfl
@[simp] theorem State.offer_arena (s : State) (w : Word) : (s.offer w).arena = s.arena := rfl
@[simp] theorem State.offer_event (s : State) (w : Word) : (s.offer w).event = s.event := rfl
@[simp] theorem State.offer_ovr (s : State) (w : Word) : (s.offer w).ovr = s.ovr := rfl
@[simp] theorem State.offer_ovrCount (s : State) (w : Word) : (s.offer w).ovrCount = s.ovrCount := rfl
@[simp] theorem State.offer_prodPhase (s : State) (w : Word) : (s.offer w).prodPhase = s.prodPhase := rfl
@[simp] theorem State.offer_rdCount (s : State) (w : Word) : (s.offer w).rdCount = s.rdCount := rfl
@[simp] theorem State.offer_consState (s : State) (w : Word) : (s.offer w).consState = s.consState := rfl
@[simp] theorem State.offer_acqOffset (s : State) (w : Word) : (s.offer w).acqOffset = s.acqOffset := rfl
@[simp] theorem State.offer_acqValid (s : State) (w : Word) : (s.offer w).acqValid = s.acqValid := rfl
@[simp] theorem State.offer_acqDirty (s : State) (w : Word) : (s.offer w).acqDirty = s.acqDirty := rfl
@[simp] theorem State.offer_decoded (s : State) (w : Word) : (s.offer w).decoded = s.decoded := rfl
@[simp] theorem State.offer_crcPoly (s : State) (w : Word) : (s.offer w).crcPoly = s.crcPoly := rfl
@[simp] theorem State.offer_crcSeed (s : State) (w : Word) : (s.offer w).crcSeed = s.crcSeed := rfl
@[simp] theorem State.offer_crcResult (s : State) (w : Word) : (s.offer w).crcResult = s.crcResult := rfl
@[simp] theorem State.offer_crcTable (s : State) (w : Word) : (s.offer w).crcTable = s.crcTable := rfl
@[simp] theorem State.offer_crcTableValid (s : State) (w : Word) : (s.offer w).crcTableValid = s.crcTableValid := rfl
@[simp] theorem State.offer_validator (s : State) (w : Word) : (s.offer w).validator = s.validator := rfl
@[simp] theorem State.offer_outputs (s : State) (w : Word) : (s.offer w).outputs = s.outputs := rfl
@[simp] theorem State.offer_faulted (s : State) (w : Word) : (s.offer w).faulted = s.faulted := rfl
@[simp] theorem State.offer_faultCode (s : State) (w : Word) : (s.offer w).faultCode = s.faultCode := rfl
@[simp] theorem State.offer_faultCmd (s : State) (w : Word) : (s.offer w).faultCmd = s.faultCmd := rfl
@[simp] theorem State.offer_pending (s : State) (w : Word) : (s.offer w).pending = .command w :: s.pending := rfl
@[simp] theorem State.offer_draws (s : State) (w : Word) : (s.offer w).draws = s.draws := rfl
@[simp] theorem State.offer_readData (s : State) (w : Word) : (s.offer w).readData = s.readData := rfl

/-! ## `State.resetLine` -/

@[simp] theorem State.resetLine_config (s : State) : s.resetLine.config = s.config := rfl
@[simp] theorem State.resetLine_cfgDone (s : State) : s.resetLine.cfgDone = false := rfl
@[simp] theorem State.resetLine_n (s : State) : s.resetLine.n = 0 := rfl
@[simp] theorem State.resetLine_p (s : State) : s.resetLine.p = 0 := rfl
@[simp] theorem State.resetLine_wIdx (s : State) : s.resetLine.wIdx = 0 := rfl
@[simp] theorem State.resetLine_rIdx (s : State) : s.resetLine.rIdx = 0 := rfl
@[simp] theorem State.resetLine_valid (s : State) : s.resetLine.valid = [] := rfl
@[simp] theorem State.resetLine_arena (s : State) : s.resetLine.arena = [] := rfl
@[simp] theorem State.resetLine_event (s : State) : s.resetLine.event = false := rfl
@[simp] theorem State.resetLine_ovr (s : State) : s.resetLine.ovr = false := rfl
@[simp] theorem State.resetLine_ovrCount (s : State) : s.resetLine.ovrCount = 0 := rfl
@[simp] theorem State.resetLine_prodPhase (s : State) : s.resetLine.prodPhase = .stopped := rfl
@[simp] theorem State.resetLine_rdCount (s : State) : s.resetLine.rdCount = 0 := rfl
@[simp] theorem State.resetLine_consState (s : State) : s.resetLine.consState = .idle := rfl
@[simp] theorem State.resetLine_acqOffset (s : State) : s.resetLine.acqOffset = 0 := rfl
@[simp] theorem State.resetLine_acqValid (s : State) : s.resetLine.acqValid = false := rfl
@[simp] theorem State.resetLine_acqDirty (s : State) : s.resetLine.acqDirty = false := rfl
@[simp] theorem State.resetLine_decoded (s : State) : s.resetLine.decoded = false := rfl
@[simp] theorem State.resetLine_crcPoly (s : State) : s.resetLine.crcPoly = 0 := rfl
@[simp] theorem State.resetLine_crcSeed (s : State) : s.resetLine.crcSeed = 0 := rfl
@[simp] theorem State.resetLine_crcResult (s : State) : s.resetLine.crcResult = 0 := rfl
@[simp] theorem State.resetLine_crcTable (s : State) : s.resetLine.crcTable = .replicate 256 0 := rfl
@[simp] theorem State.resetLine_crcTableValid (s : State) : s.resetLine.crcTableValid = false := rfl
@[simp] theorem State.resetLine_validator (s : State) : s.resetLine.validator = .reset := rfl
@[simp] theorem State.resetLine_outputs (s : State) : s.resetLine.outputs = .zero := rfl
@[simp] theorem State.resetLine_faulted (s : State) : s.resetLine.faulted = false := rfl
@[simp] theorem State.resetLine_faultCode (s : State) : s.resetLine.faultCode = 0 := rfl
@[simp] theorem State.resetLine_faultCmd (s : State) : s.resetLine.faultCmd = 0 := rfl
@[simp] theorem State.resetLine_pending (s : State) : s.resetLine.pending = s.pending := rfl
@[simp] theorem State.resetLine_draws (s : State) : s.resetLine.draws = s.draws := rfl
@[simp] theorem State.resetLine_readData (s : State) : s.resetLine.readData = s.readData := rfl

/-! ## `State.registers` -/

@[simp] theorem State.registers_config (s : State) : s.registers.config = s.config := rfl
@[simp] theorem State.registers_cfgDone (s : State) : s.registers.cfgDone = s.cfgDone := rfl
@[simp] theorem State.registers_n (s : State) : s.registers.n = s.n := rfl
@[simp] theorem State.registers_p (s : State) : s.registers.p = s.p := rfl
@[simp] theorem State.registers_wIdx (s : State) : s.registers.wIdx = s.wIdx := rfl
@[simp] theorem State.registers_rIdx (s : State) : s.registers.rIdx = s.rIdx := rfl
@[simp] theorem State.registers_valid (s : State) : s.registers.valid = s.valid := rfl
@[simp] theorem State.registers_arena (s : State) : s.registers.arena = s.arena := rfl
@[simp] theorem State.registers_event (s : State) : s.registers.event = s.event := rfl
@[simp] theorem State.registers_ovr (s : State) : s.registers.ovr = s.ovr := rfl
@[simp] theorem State.registers_ovrCount (s : State) : s.registers.ovrCount = s.ovrCount := rfl
@[simp] theorem State.registers_prodPhase (s : State) : s.registers.prodPhase = s.prodPhase := rfl
@[simp] theorem State.registers_rdCount (s : State) : s.registers.rdCount = s.rdCount := rfl
@[simp] theorem State.registers_consState (s : State) : s.registers.consState = s.consState := rfl
@[simp] theorem State.registers_acqOffset (s : State) : s.registers.acqOffset = s.acqOffset := rfl
@[simp] theorem State.registers_acqValid (s : State) : s.registers.acqValid = s.acqValid := rfl
@[simp] theorem State.registers_acqDirty (s : State) : s.registers.acqDirty = s.acqDirty := rfl
@[simp] theorem State.registers_decoded (s : State) : s.registers.decoded = s.decoded := rfl
@[simp] theorem State.registers_crcPoly (s : State) : s.registers.crcPoly = s.crcPoly := rfl
@[simp] theorem State.registers_crcSeed (s : State) : s.registers.crcSeed = s.crcSeed := rfl
@[simp] theorem State.registers_crcResult (s : State) : s.registers.crcResult = s.crcResult := rfl
@[simp] theorem State.registers_crcTable (s : State) : s.registers.crcTable = s.crcTable := rfl
@[simp] theorem State.registers_crcTableValid (s : State) : s.registers.crcTableValid = s.crcTableValid := rfl
@[simp] theorem State.registers_validator (s : State) : s.registers.validator = s.validator := rfl
@[simp] theorem State.registers_outputs (s : State) : s.registers.outputs = s.outputs := rfl
@[simp] theorem State.registers_faulted (s : State) : s.registers.faulted = s.faulted := rfl
@[simp] theorem State.registers_faultCode (s : State) : s.registers.faultCode = s.faultCode := rfl
@[simp] theorem State.registers_faultCmd (s : State) : s.registers.faultCmd = s.faultCmd := rfl
@[simp] theorem State.registers_pending (s : State) : s.registers.pending = [] := rfl
@[simp] theorem State.registers_draws (s : State) : s.registers.draws = 0 := rfl
@[simp] theorem State.registers_readData (s : State) : s.registers.readData = 0 := rfl

end Sys2Proof.Machine
end

