-- ==== Sys2Proof/Laws/Memory.lean ====
section
/-! SUPPORT. The laws of the byte spaces: read after write, and every operation keeps the canonical form. -/

namespace Sys2Proof.Machine

@[simp] theorem Memory.find_nil (a : Nat) : Memory.find [] a = none := rfl

theorem Memory.above_iff (b : Nat) (m : Memory) : Memory.above b m = true ↔ ∀ c ∈ m, b < c.1 := by
  simp [Memory.above, List.all_eq_true]

theorem Memory.above_mono {b b' : Nat} {m : Memory} (h : b ≤ b') (hm : Memory.above b' m = true) :
    Memory.above b m = true := by
  rw [Memory.above_iff] at *
  exact fun c hc => lt_of_le_of_lt h (hm c hc)

/-- An address at or below a bound that everything listed exceeds is not listed. -/
theorem Memory.find_of_above {b a : Nat} {m : Memory} (hm : Memory.above b m = true) (h : a ≤ b) : m.find a = none := by
  induction m with
  | nil => rfl
  | cons c m ih =>
    rw [Memory.above_iff] at hm
    have hc := hm c (by simp)
    have : c.1 ≠ a := by omega
    simp only [Memory.find, this, if_false]
    exact ih ((Memory.above_iff _ _).2 fun d hd => hm d (by simp [hd]))

theorem Memory.wf_cons (c : Host.Cell) (m : Memory) :
    Memory.wf (c :: m) = true ↔ Memory.above c.1 m = true ∧ Memory.wf m = true := by simp [Memory.wf]

/-- Read after `put`: the byte put there, and every other address as before. -/
@[simp] theorem Memory.find_put (m : Memory) (a a' : Nat) (v : Byte) :
    (m.put a v).find a' = if a' = a then some v else m.find a' := by
  induction m with
  | nil => simp only [Memory.put, Memory.find, eq_comm]
  | cons c m ih =>
    simp only [Memory.put]
    by_cases e : a' = a
    · subst e
      split
      · simp [Memory.find]
      · split
        · simp [Memory.find]
        · next h => simpa [Memory.find, Ne.symm h] using ih
    · have e' : ¬ a = a' := fun h => e h.symm
      split
      · simp [Memory.find, e']
      · split
        · next h => simp [Memory.find, e', ← h]
        · simp [Memory.find, e, ih]

theorem Memory.above_put {m : Memory} {a b : Nat} {v : Byte} (hm : Memory.above b m = true) (h : b < a) :
    Memory.above b (m.put a v) = true := by
  induction m with
  | nil => simp [Memory.put, Memory.above, h]
  | cons c m ih =>
    rw [Memory.above_iff] at hm
    have hc := hm c (by simp)
    have ht : Memory.above b m = true := (Memory.above_iff _ _).2 fun d hd => hm d (by simp [hd])
    simp only [Memory.put]
    split
    · rw [Memory.above_iff]; simpa [h] using hm
    · split
      · rw [Memory.above_iff] at *; simpa [h] using ht
      · have := ih ht
        rw [Memory.above_iff] at *
        simpa [hc] using this

/-- `put` keeps addresses strictly rising. -/
theorem Memory.wf_put {m : Memory} (a : Nat) (v : Byte) (hm : Memory.wf m = true) : Memory.wf (m.put a v) = true := by
  induction m with
  | nil => rfl
  | cons c m ih =>
    obtain ⟨hc, ht⟩ := (Memory.wf_cons c m).1 hm
    simp only [Memory.put]
    split
    · next h =>
      refine (Memory.wf_cons _ _).2 ⟨?_, hm⟩
      rw [Memory.above_iff] at *
      intro d hd
      rcases List.mem_cons.1 hd with rfl | hd
      · exact h
      · exact lt_trans h (hc d hd)
    · split
      · next h => exact (Memory.wf_cons _ _).2 ⟨by simpa [h] using hc, ht⟩
      · next h h' => exact (Memory.wf_cons _ _).2 ⟨Memory.above_put hc (by omega), ih ht⟩

theorem Memory.above_drop {m : Memory} {b : Nat} (a : Nat) (hm : Memory.above b m = true) :
    Memory.above b (m.drop a) = true := by
  induction m with
  | nil => rfl
  | cons c m ih =>
    rw [Memory.above_iff] at hm
    have ht : Memory.above b m = true := (Memory.above_iff _ _).2 fun d hd => hm d (by simp [hd])
    simp only [Memory.drop]
    split
    · exact ht
    · have := ih ht
      rw [Memory.above_iff] at *
      simpa [hm c (by simp)] using this

/-- `drop` keeps addresses strictly rising. -/
theorem Memory.wf_drop {m : Memory} (a : Nat) (hm : Memory.wf m = true) : Memory.wf (m.drop a) = true := by
  induction m with
  | nil => rfl
  | cons c m ih =>
    obtain ⟨hc, ht⟩ := (Memory.wf_cons c m).1 hm
    simp only [Memory.drop]
    split
    · exact ht
    · exact (Memory.wf_cons _ _).2 ⟨Memory.above_drop a hc, ih ht⟩

/-- Read after `drop`: nothing is listed there, and every other address is as before. -/
theorem Memory.find_drop {m : Memory} (hm : Memory.wf m = true) (a a' : Nat) :
    (m.drop a).find a' = if a' = a then none else m.find a' := by
  induction m with
  | nil => simp [Memory.drop]
  | cons c m ih =>
    obtain ⟨hc, ht⟩ := (Memory.wf_cons c m).1 hm
    simp only [Memory.drop]
    split
    · next h =>
      by_cases h' : a' = a
      · simpa [h'] using Memory.find_of_above hc (le_of_eq h.symm)
      · have : ¬ c.1 = a' := fun e => h' (e.symm.trans h)
        simp [Memory.find, h', this]
    · next h =>
      by_cases h' : a' = a
      · simpa [Memory.find, h', h] using ih ht
      · simp [Memory.find, ih ht, h']

theorem Memory.mem_put {m : Memory} {a : Nat} {v : Byte} {c : Host.Cell} (h : c ∈ m.put a v) : c = (a, v) ∨ c ∈ m := by
  induction m with
  | nil => simpa [Memory.put] using h
  | cons d m ih =>
    simp only [Memory.put] at h
    split at h
    · simpa using h
    · split at h
      · rcases List.mem_cons.1 h with h | h
        · exact .inl h
        · exact .inr (by simp [h])
      · rcases List.mem_cons.1 h with h | h
        · exact .inr (by simp [h])
        · rcases ih h with h | h
          · exact .inl h
          · exact .inr (by simp [h])

theorem Memory.mem_drop {m : Memory} {a : Nat} {c : Host.Cell} (h : c ∈ m.drop a) : c ∈ m := by
  induction m with
  | nil => simp [Memory.drop] at h
  | cons d m ih =>
    simp only [Memory.drop] at h
    split at h
    · simp [h]
    · rcases List.mem_cons.1 h with h | h
      · simp [h]
      · simp [ih h]

theorem Memory.flagsWf_iff (m : Memory) :
    Memory.flagsWf m = true ↔ Memory.wf m = true ∧ ∀ c ∈ m, c.2 ≠ 0 := by
  simp only [Memory.flagsWf, Bool.and_eq_true, List.all_eq_true, bne_iff_ne]

/-- Writing a flag keeps the canonical form of the validity space. -/
theorem State.setValid_flagsWf {s : State} (i : Nat) (v : Byte) (h : Memory.flagsWf s.valid = true) :
    Memory.flagsWf (s.setValid i v).valid = true := by
  rw [Memory.flagsWf_iff] at *
  simp only [State.setValid_valid]
  split
  · exact ⟨Memory.wf_drop i h.1, fun c hc => h.2 c (Memory.mem_drop hc)⟩
  · next hv =>
    refine ⟨Memory.wf_put i v h.1, fun c hc => ?_⟩
    rcases Memory.mem_put hc with rfl | hc
    · exact hv
    · exact h.2 c hc

/-- Writing an arena byte keeps the canonical form of the arena. -/
theorem State.arenaWrite_wf {s : State} (a : Nat) (v : Byte) (h : Memory.wf s.arena = true) :
    Memory.wf (s.arenaWrite a v).arena = true := Memory.wf_put a v h

/-- A flag depends on the validity space alone. -/
theorem State.validByte_congr {s t : State} (h : t.valid = s.valid) (i : Nat) : t.validByte i = s.validByte i := by
  rw [State.validByte, State.validByte, h]

/-- An arena byte depends on the arena alone. -/
theorem State.arenaRead_congr {s t : State} (h : t.arena = s.arena) (a : Nat) : t.arenaRead a = s.arenaRead a := by
  rw [State.arenaRead, State.arenaRead, h]

/-- `VALID` after a flag is written: that flag, and every other as before. -/
theorem State.validByte_setValid {s : State} (h : Memory.wf s.valid = true) (i j : Nat) (v : Byte) :
    (s.setValid i v).validByte j = if j = i then v else s.validByte j := by
  simp only [State.validByte, State.setValid_valid]
  split
  · next hv =>
    rw [Memory.find_drop h]
    split <;> simp [hv]
  · rw [Memory.find_put]
    split <;> simp

/-- `ARENA` and `WRITTEN` after a byte is written: that byte, and every other as before. -/
@[simp] theorem State.arenaRead_arenaWrite (s : State) (a a' : Nat) (v : Byte) :
    (s.arenaWrite a v).arenaRead a' = if a' = a then some v else s.arenaRead a' := by
  simp [State.arenaRead]

/-- Two byte spaces in canonical form that read alike are equal data. -/
theorem Memory.eq_of_find_eq {m m' : Memory} (h : Memory.wf m = true) (h' : Memory.wf m' = true)
    (e : ∀ a, m.find a = m'.find a) : m = m' := by
  induction m generalizing m' with
  | nil =>
    cases m' with
    | nil => rfl
    | cons c m' => exact absurd (e c.1) (by simp [Memory.find])
  | cons c m ih =>
    cases m' with
    | nil => exact absurd (e c.1) (by simp [Memory.find])
    | cons d m' =>
      obtain ⟨hc, ht⟩ := (Memory.wf_cons c m).1 h
      obtain ⟨hd, ht'⟩ := (Memory.wf_cons d m').1 h'
      have key : c.1 = d.1 := by
        rcases lt_trichotomy c.1 d.1 with l | l | l
        · have := e c.1
          simp [Memory.find, l.ne', Memory.find_of_above hd l.le] at this
        · exact l
        · have := e d.1
          simp [Memory.find, l.ne', Memory.find_of_above hc l.le] at this
      have val : c.2 = d.2 := by simpa [Memory.find, key] using e c.1
      have tail : m = m' := ih ht ht' fun a => by
        by_cases ha : a ≤ c.1
        · rw [Memory.find_of_above hc ha, Memory.find_of_above hd (key ▸ ha)]
        · have hne : c.1 ≠ a := by omega
          have hne' : d.1 ≠ a := key ▸ hne
          simpa [Memory.find, hne, hne'] using e a
      rw [tail, Prod.ext key val]

/-- `ArenaRead` of a list fails exactly where one of its bytes was never written (R63). -/
theorem State.arenaBytes_eq_none (s : State) (as : List Nat) :
    s.arenaBytes as = none ↔ ∃ a ∈ as, s.written a = false := by
  induction as with
  | nil => simp [State.arenaBytes]
  | cons a as ih =>
    simp only [State.arenaBytes, State.arenaRead, State.written, List.mem_cons, exists_eq_or_imp] at *
    rcases s.arena.find a with _ | b <;> rcases h : s.arenaBytes as with _ | bs <;> simp_all

/-- `ArenaRead` of a list that succeeds gives each address's byte, in order (R63). -/
theorem State.arenaBytes_eq_some {s : State} {as : List Nat} {bs : List Byte} (h : s.arenaBytes as = some bs) :
    as.map s.arenaRead = bs.map some := by
  induction as generalizing bs with
  | nil => simp_all [State.arenaBytes]
  | cons a as ih =>
    simp only [State.arenaBytes] at h
    split at h
    · next ha hb =>
      cases h
      simp [ha, ih hb]
    · cases h

end Sys2Proof.Machine
end

