-- ==== Sys2Proof/Laws/Ops.lean ====
section
/-! SUPPORT. For each shared operation and each meaning, what it can do, said once: if it answers a next state, which one, and
under which condition. Later proofs cite these and unfold nothing. -/

namespace Sys2Proof.Machine

/-- A raised fault is a next state (R255). -/
theorem raiseFault_eq (code : FaultCode) (i : Instr) (s : State) :
    raiseFault code i s = .next (s.takeFault code (encode i)) := rfl

/-- A release consumes the slot, in variant B or when the slot was and still is valid, or leaves the ring alone. -/
theorem State.releaseVariant_cases (s : State) :
    (s.releaseVariant = s.consumeSlot ∧
        (s.config.variant = .b ∨ (s.acqValid = true ∧ s.isValid s.rIdx.toNat = true))) ∨
      (s.releaseVariant = s ∧ s.config.variant = .a ∧ (s.acqValid && s.isValid s.rIdx.toNat) = false) := by
  unfold State.releaseVariant
  rcases h : s.config.variant <;> simp only
  · by_cases c : (s.acqValid && s.isValid s.rIdx.toNat) = true
    · simp_all
    · simp_all
  · simp

/-- An overrun report touches `OVR` and `OVR_COUNT` only, and only when the flag is true (R146). -/
theorem State.reportOverrun_eq (s : State) :
    s.reportOverrun =
      { s with ovr := s.ovr || s.isValid s.wIdx.toNat
               ovrCount := if s.isValid s.wIdx.toNat then overrunCount s.ovrCount else s.ovrCount } := by
  unfold State.reportOverrun
  rcases h : s.isValid s.wIdx.toNat <;> simp

/-! ## Ring-buffer commands -/

theorem execCfg_cases {n : BitVec 12} {p : BitVec 8} {s t : State} (h : execCfg n p s = .next t) :
    ((s.prodPhase ≠ .stopped ∨ s.consState ≠ .idle) ∧ t = s.takeFault .busy (encode (.cfg n p))) ∨
    (s.prodPhase = .stopped ∧ s.consState = .idle ∧ badRing n p = true ∧
      t = s.takeFault .badConfig (encode (.cfg n p))) ∨
    (s.prodPhase = .stopped ∧ s.consState = .idle ∧ badRing n p = false ∧ t = s.configure n p) := by
  unfold execCfg at h
  split at h
  · next c => exact .inl ⟨by simpa using c, by cases h; rfl⟩
  · next c =>
    have c' : s.prodPhase = .stopped ∧ s.consState = .idle := by simpa using c
    split at h
    · next b => exact .inr (.inl ⟨c'.1, c'.2, b, by cases h; rfl⟩)
    · next b => exact .inr (.inr ⟨c'.1, c'.2, by simpa using b, by cases h; rfl⟩)

theorem execStart_cases {s t : State} (h : execStart s = .next t) :
    (s.cfgDone = false ∧ t = s.takeFault .notConfigured (encode .start)) ∨
    (s.cfgDone = true ∧ s.prodPhase = .stopped ∧ t = { s with prodPhase := .drain, rdCount := 0 }) ∨
    (s.cfgDone = true ∧ s.prodPhase ≠ .stopped ∧ t = s) := by
  unfold execStart at h
  split at h
  · next c => exact .inl ⟨by simpa using c, by cases h; rfl⟩
  · next c =>
    split at h
    · next b => exact .inr (.inl ⟨by simpa using c, by simpa using b, by cases h; rfl⟩)
    · next b => exact .inr (.inr ⟨by simpa using c, by simpa using b, by cases h; rfl⟩)

theorem execAcquire_cases {s t : State} (h : execAcquire s = .next t) :
    (s.cfgDone = false ∧ t = s.takeFault .notConfigured (encode .acquire)) ∨
    (s.cfgDone = true ∧ s.consState ≠ .idle ∧ t = s.takeFault .protocol (encode .acquire)) ∨
    (s.cfgDone = true ∧ s.consState = .idle ∧ s.slotExists s.rIdx = true ∧
      ((s.isValid s.rIdx.toNat = true ∧ t = s.acquireReturn) ∨
       (s.isValid s.rIdx.toNat = false ∧ t = { s with event := false, consState := .waiting }))) := by
  unfold execAcquire at h
  split at h
  · next c => exact .inl ⟨by simpa using c, by cases h; rfl⟩
  · next c =>
    have c' : s.cfgDone = true := by simpa using c
    split at h
    · next b => exact .inr (.inl ⟨c', by simpa using b, by cases h; rfl⟩)
    · next b =>
      have b' : s.consState = .idle := by simpa using b
      split at h
      · cases h
      · next e =>
        refine .inr (.inr ⟨c', b', by simpa using e, ?_⟩)
        split at h
        · next v => exact .inl ⟨v, by cases h; rfl⟩
        · next v => exact .inr ⟨by simpa using v, by cases h; rfl⟩

theorem wakeStep_cases {s t : State} (h : wakeStep s = .next t) :
    (s.wakeEnabled = false ∧ t = s) ∨
    (s.wakeEnabled = true ∧ s.slotExists s.rIdx = true ∧ t = { s with event := false }.acquireReturn) := by
  unfold wakeStep at h
  split at h
  · next c => exact .inl ⟨by simpa using c, by cases h; rfl⟩
  · next c =>
    split at h
    · cases h
    · next e => exact .inr ⟨by simpa using c, by simpa using e, by cases h; rfl⟩

theorem execRelease_cases {s t : State} (h : execRelease s = .next t) :
    (s.cfgDone = false ∧ t = s.takeFault .notConfigured (encode .release)) ∨
    (s.cfgDone = true ∧ s.consState ≠ .holding ∧ t = s.takeFault .protocol (encode .release)) ∨
    (s.cfgDone = true ∧ s.consState = .holding ∧ s.slotExists s.rIdx = true ∧
      t = { s.releaseVariant with consState := .idle, acqDirty := false }) := by
  unfold execRelease at h
  split at h
  · next c => exact .inl ⟨by simpa using c, by cases h; rfl⟩
  · next c =>
    split at h
    · next b => exact .inr (.inl ⟨by simpa using c, by simpa using b, by cases h; rfl⟩)
    · next b =>
      split at h
      · cases h
      · next e => exact .inr (.inr ⟨by simpa using c, by simpa using b, by simpa using e, by cases h; rfl⟩)

/-! ## CRC commands -/

theorem computeCrc_cases {inv : Bool} {addr : Half} {len : BitVec 11} {i : Instr} {s t : State}
    (h : computeCrc inv addr len i s = .next t) :
    (∃ code, t = s.takeFault code (encode i) ∧
      (code = .notConfigured ∧ s.cfgDone = false ∨
       code = .crcNoTable ∧ s.cfgDone = true ∧ s.crcTableValid = false ∨
       code = .crcRange ∧ s.cfgDone = true ∧ s.crcTableValid = true ∧ rangeLeaves inv addr len s.arenaSize = true ∨
       code = .readUninit ∧ s.cfgDone = true ∧ s.crcTableValid = true ∧ rangeLeaves inv addr len s.arenaSize = false ∧
         s.arenaBytes (rangeAddrs inv addr len) = none)) ∨
    (s.cfgDone = true ∧ s.crcTableValid = true ∧ rangeLeaves inv addr len s.arenaSize = false ∧
      ∃ bytes, s.arenaBytes (rangeAddrs inv addr len) = some bytes ∧
        t = s.computeOver (rangeAddrs inv addr len) bytes) := by
  unfold computeCrc at h
  split at h
  · next c => exact .inl ⟨.notConfigured, by cases h; rfl, .inl ⟨rfl, by simpa using c⟩⟩
  · next c =>
    have c' : s.cfgDone = true := by simpa using c
    split at h
    · next b => exact .inl ⟨.crcNoTable, by cases h; rfl, .inr (.inl ⟨rfl, c', by simpa using b⟩)⟩
    · next b =>
      have b' : s.crcTableValid = true := by simpa using b
      split at h
      · next r => exact .inl ⟨.crcRange, by cases h; rfl, .inr (.inr (.inl ⟨rfl, c', b', r⟩))⟩
      · next r =>
        have r' : rangeLeaves inv addr len s.arenaSize = false := by simpa using r
        split at h
        · next e => exact .inl ⟨.readUninit, by cases h; rfl, .inr (.inr (.inr ⟨rfl, c', b', r', e⟩))⟩
        · next bs e => exact .inr ⟨c', b', r', bs, e, by cases h; rfl⟩

/-- A compute writes `CRC_RESULT`, and takes a draw when the range is live (R179, R180). -/
theorem State.computeOver_cases (s : State) (as : List Nat) (bs : List Byte) :
    (s.touchesFilling as = true ∧
        s.computeOver as bs = { s with crcResult := Config.draw 16 s.draws, draws := s.draws + 1 }) ∨
      (s.touchesFilling as = false ∧
        s.computeOver as bs = { s with crcResult := crcRun s.crcTable s.crcSeed bs }) := by
  unfold State.computeOver
  split
  · next h => exact .inl ⟨h, rfl⟩
  · next h => exact .inr ⟨by simpa using h, rfl⟩

/-! ## Decoder commands -/

/-- An enabled DECODE decodes one packet: the slot's, or drawn bytes. -/
theorem State.decodeBytes_cases (s : State) (bs : List Byte) :
    (s.torn = true ∧ s.decodeBytes bs = { s with draws := s.draws + 15 }.decodePacket (drawPacket s.draws)) ∨
      (s.torn = false ∧ s.decodeBytes bs = s.decodePacket (packetOf bs)) := by
  unfold State.decodeBytes
  split
  · next h => exact .inl ⟨h, rfl⟩
  · next h => exact .inr ⟨by simpa using h, rfl⟩

theorem execDecode_cases {s t : State} (h : execDecode s = .next t) :
    (∃ code, t = s.takeFault code (encode .decode) ∧
      (code = .notConfigured ∧ s.cfgDone = false ∨
       code = .protocol ∧ s.cfgDone = true ∧ (s.consState ≠ .holding ∨ s.decoded = true) ∨
       code = .decodeSize ∧ s.cfgDone = true ∧ s.consState = .holding ∧ s.decoded = false ∧ s.p ≠ Config.pDec ∨
       code = .readUninit ∧ s.cfgDone = true ∧ s.consState = .holding ∧ s.decoded = false ∧ s.p = Config.pDec ∧
         s.decoderEnabled = true ∧ s.arenaBytes (packetAddrs s.acqOffset.toNat) = none)) ∨
    (s.cfgDone = true ∧ s.consState = .holding ∧ s.decoded = false ∧ s.p = Config.pDec ∧
      ((s.decoderEnabled = false ∧ t = s.decodeDisabled) ∨
       (s.decoderEnabled = true ∧ ∃ bytes, s.arenaBytes (packetAddrs s.acqOffset.toNat) = some bytes ∧
          t = s.decodeBytes bytes))) := by
  unfold execDecode at h
  split at h
  · next c => exact .inl ⟨.notConfigured, by cases h; rfl, .inl ⟨rfl, by simpa using c⟩⟩
  · next c =>
    have c' : s.cfgDone = true := by simpa using c
    split at h
    · next b => exact .inl ⟨.protocol, by cases h; rfl, .inr (.inl ⟨rfl, c', by simpa using b⟩)⟩
    · next b =>
      have b' : s.consState = .holding ∧ s.decoded = false := by simpa using b
      split at h
      · next q =>
        exact .inl ⟨.decodeSize, by cases h; rfl, .inr (.inr (.inl ⟨rfl, c', b'.1, b'.2, by simpa using q⟩))⟩
      · next q =>
        have q' : s.p = Config.pDec := by simpa using q
        split at h
        · next e => exact .inr ⟨c', b'.1, b'.2, q', .inl ⟨by simpa using e, by cases h; rfl⟩⟩
        · next e =>
          have e' : s.decoderEnabled = true := by simpa using e
          split at h
          · cases h
          · split at h
            · next u =>
              exact .inl ⟨.readUninit, by cases h; rfl, .inr (.inr (.inr ⟨rfl, c', b'.1, b'.2, q', e', u⟩))⟩
            · next bs u => exact .inr ⟨c', b'.1, b'.2, q', .inr ⟨e', bs, u, by cases h; rfl⟩⟩

/-! ## Producer and reader -/

/-- A step of the producer that is not enabled changes nothing; one that is enabled is the rule of its phase. -/
theorem produceStep_cases {s t : State} (h : produceStep s = .next t) :
    t = s ∨
    (s.faulted = false ∧ s.prodPhase = .check ∧ s.slotExists s.wIdx = true ∧
      t = { s.reportOverrun with rdCount := 0, prodPhase := .read }) ∨
    (s.faulted = false ∧ s.prodPhase = .commit ∧ s.slotExists s.wIdx = true ∧
      t = { s.setValid s.wIdx.toNat 1 with wIdx := s.nextSlot s.wIdx, event := true, prodPhase := .check }) ∨
    (s.faulted = false ∧ s.prodPhase = .empty ∧ s.config.variant = .a ∧ s.slotExists s.wIdx = true ∧
      t = { s.setValid s.wIdx.toNat 0 with event := true, prodPhase := .check }) ∨
    (s.faulted = false ∧ s.prodPhase = .empty ∧ s.config.variant = .b ∧ t = { s with prodPhase := .check }) := by
  unfold produceStep at h
  split at h
  · exact .inl (by cases h; rfl)
  · next f =>
    have f' : s.faulted = false := by simpa using f
    split at h
    · next ph =>
      unfold producerCheck at h
      split at h
      · cases h
      · next e => exact .inr (.inl ⟨f', ph, by simpa using e, by cases h; rfl⟩)
    · next ph =>
      unfold producerCommit at h
      split at h
      · cases h
      · next e => exact .inr (.inr (.inl ⟨f', ph, by simpa using e, by cases h; rfl⟩))
    · next ph =>
      unfold producerEmpty at h
      split at h
      · next v =>
        split at h
        · cases h
        · next e => exact .inr (.inr (.inr (.inl ⟨f', ph, v, by simpa using e, by cases h; rfl⟩)))
      · next v => exact .inr (.inr (.inr (.inr ⟨f', ph, v, by cases h; rfl⟩)))
    all_goals exact .inl (by cases h; rfl)

theorem serialStep_cases {e : SerialInput} {s t : State} (h : serialStep e s = .next t) :
    t = s ∨
    (s.faulted = false ∧ (s.prodPhase = .drain ∨ s.prodPhase = .resync) ∧ e = .quiet ∧
      t = { s with prodPhase := .check }) ∨
    (s.faulted = false ∧ s.prodPhase = .read ∧ s.rdCount < s.p ∧
      ((∃ b, e = .byte b ∧ s.slotExists s.wIdx = true ∧ t = s.storeByte b) ∨
       (e = .timeout ∧ t = { s with prodPhase := if s.rdCount = 0 then .empty else .resync, rdCount := 0 }) ∨
       (e = .error ∧ t = { s with prodPhase := .resync, rdCount := 0 }))) := by
  unfold serialStep at h
  split at h
  · exact .inl (by cases h; rfl)
  · next f =>
    have f' : s.faulted = false := by simpa using f
    have quiet : ∀ {u : State}, quietInput e s = .next u → u = s ∨ (e = .quiet ∧ u = { s with prodPhase := .check }) := by
      intro u hu
      cases e <;> simp [quietInput] at hu <;> simp [hu]
    split at h
    · next ph =>
      rcases quiet h with r | ⟨r, r'⟩
      · exact .inl r
      · exact .inr (.inl ⟨f', .inl ph, r, r'⟩)
    · next ph =>
      rcases quiet h with r | ⟨r, r'⟩
      · exact .inl r
      · exact .inr (.inl ⟨f', .inr ph, r, r'⟩)
    · next ph =>
      unfold readInput at h
      split at h
      · next lt =>
        cases e with
        | byte b =>
          simp only [readByte] at h
          split at h
          · cases h
          · next x => exact .inr (.inr ⟨f', ph, lt, .inl ⟨b, rfl, by simpa using x, by cases h; rfl⟩⟩)
        | timeout => exact .inr (.inr ⟨f', ph, lt, .inr (.inl ⟨rfl, by cases h; rfl⟩)⟩)
        | error => exact .inr (.inr ⟨f', ph, lt, .inr (.inr ⟨rfl, by cases h; rfl⟩)⟩)
        | quiet => exact .inl (by cases h; rfl)
      · exact .inl (by cases h; rfl)
    all_goals exact .inl (by cases h; rfl)

/-- A read-port access always answers, and touches the model's own bookkeeping only (R66). -/
theorem readStep_eq (a : ReadAccess) (s : State) :
    ∃ v d, readStep a s = .next { s with readData := v, draws := d } := by
  unfold readStep
  split
  · next v _ => exact ⟨v, s.draws, rfl⟩
  · exact ⟨_, s.draws + 1, rfl⟩

/-! ## The port and the step -/

theorem commandStep_cases {w : Word} {s t : State} (h : commandStep w s = .next t) :
    (s.portOpen = false ∧ t = s) ∨
    (s.portOpen = true ∧ ∃ i, decodeWord w = .ok i ∧ exec i s = .next t) ∨
    (s.portOpen = true ∧ ∃ e, decodeWord w = .error e ∧ t = s.takeFault (decodeFault e) w) := by
  unfold commandStep at h
  split at h
  · next p =>
    split at h
    · next i d => exact .inr (.inl ⟨p, i, d, h⟩)
    · next e d => exact .inr (.inr ⟨p, e, d, by cases h; rfl⟩)
  · next p => exact .inl ⟨by simpa using p, by cases h; rfl⟩

/-- A step is the next turn that is offered, or nothing. -/
theorem step_cases {s t : State} (h : step s = .next t) :
    (s.pending = [] ∧ t = s) ∨
    (∃ u rest, s.pending = u :: rest ∧ takeTurn u { s with pending := rest } = .next t) := by
  unfold step State.nextTurn at h
  rcases p : s.pending with _ | ⟨u, rest⟩
  · rw [p] at h
    exact .inl ⟨rfl, by cases h; rfl⟩
  · rw [p] at h
    exact .inr ⟨u, rest, rfl, h⟩

/-! ## What commands do to the producer (R36, log entry 19) -/

/-- The producer's two registers hold what they held, or the producer is stopped with a count of 0, or START has left it in
DRAIN: all a command can do to them. -/
theorem exec_producer_cases {i : Instr} {s t : State} (h : exec i s = .next t) :
    (t.prodPhase = s.prodPhase ∧ t.rdCount = s.rdCount) ∨
    (i = .stop ∧ t.prodPhase = .stopped ∧ t.rdCount = 0) ∨
    (i = .start ∧ s.prodPhase = .stopped ∧ t.prodPhase = .drain ∧ t.rdCount = 0) ∨
    ((∃ n p, i = .cfg n p) ∧ s.prodPhase = .stopped ∧ t.prodPhase = .stopped ∧ t.rdCount = 0) := by
  cases i with
  | nop => cases h; exact .inl ⟨rfl, rfl⟩
  | cfg n p =>
    rcases execCfg_cases h with ⟨_, rfl⟩ | ⟨_, _, _, rfl⟩ | ⟨ph, _, _, rfl⟩
    · exact .inl ⟨rfl, rfl⟩
    · exact .inl ⟨rfl, rfl⟩
    · exact .inr (.inr (.inr ⟨⟨n, p, rfl⟩, ph, ph, rfl⟩))
  | start =>
    rcases execStart_cases h with ⟨_, rfl⟩ | ⟨_, ph, rfl⟩ | ⟨_, _, rfl⟩
    · exact .inl ⟨rfl, rfl⟩
    · exact .inr (.inr (.inl ⟨rfl, ph, rfl, rfl⟩))
    · exact .inl ⟨rfl, rfl⟩
  | stop => cases h; exact .inr (.inl ⟨rfl, rfl, rfl⟩)
  | acquire =>
    rcases execAcquire_cases h with ⟨_, rfl⟩ | ⟨_, _, rfl⟩ | ⟨_, _, _, ⟨_, rfl⟩ | ⟨_, rfl⟩⟩ <;> exact .inl ⟨rfl, rfl⟩
  | release =>
    rcases execRelease_cases h with ⟨_, rfl⟩ | ⟨_, _, rfl⟩ | ⟨_, _, _, rfl⟩
    · exact .inl ⟨rfl, rfl⟩
    · exact .inl ⟨rfl, rfl⟩
    · rcases s.releaseVariant_cases with ⟨e, _⟩ | ⟨e, _⟩ <;> rw [e] <;> exact .inl ⟨rfl, rfl⟩
  | crcBuild poly => cases h; exact .inl ⟨rfl, rfl⟩
  | crcSeed seed => cases h; exact .inl ⟨rfl, rfl⟩
  | crcCompute addr len =>
    rcases computeCrc_cases h with ⟨_, rfl, _⟩ | ⟨_, _, _, bytes, _, rfl⟩
    · exact .inl ⟨rfl, rfl⟩
    · rcases s.computeOver_cases (rangeAddrs false addr len) bytes with ⟨_, e⟩ | ⟨_, e⟩ <;> rw [e] <;>
        exact .inl ⟨rfl, rfl⟩
  | crcComputeInv addr len =>
    rcases computeCrc_cases h with ⟨_, rfl, _⟩ | ⟨_, _, _, bytes, _, rfl⟩
    · exact .inl ⟨rfl, rfl⟩
    · rcases s.computeOver_cases (rangeAddrs true addr len) bytes with ⟨_, e⟩ | ⟨_, e⟩ <;> rw [e] <;>
        exact .inl ⟨rfl, rfl⟩
  | decode =>
    rcases execDecode_cases h with ⟨_, rfl, _⟩ | ⟨_, _, _, _, ⟨_, rfl⟩ | ⟨_, bytes, _, rfl⟩⟩
    · exact .inl ⟨rfl, rfl⟩
    · exact .inl ⟨rfl, rfl⟩
    · rcases s.decodeBytes_cases bytes with ⟨_, e⟩ | ⟨_, e⟩ <;> rw [e] <;> exact .inl ⟨rfl, rfl⟩
  | vreset => cases h; exact .inl ⟨rfl, rfl⟩

theorem reset_stoppedCount : State.reset.StoppedCount := fun _ => rfl

theorem step_stoppedCount {s t : State} (h : step s = .next t) (hs : s.StoppedCount) : t.StoppedCount := by
  rcases step_cases h with ⟨_, rfl⟩ | ⟨u, rest, _, h⟩
  · exact hs
  cases u with
  | command w =>
    rcases commandStep_cases h with ⟨_, rfl⟩ | ⟨_, i, _, h⟩ | ⟨_, _, _, rfl⟩
    · exact hs
    · rcases exec_producer_cases h with ⟨ph, ct⟩ | ⟨_, _, ct⟩ | ⟨_, _, _, ct⟩ | ⟨_, _, _, ct⟩
      · exact fun st => ct.trans (hs (ph.symm.trans st))
      all_goals exact fun _ => ct
    · exact hs
  | wake => rcases wakeStep_cases h with ⟨_, rfl⟩ | ⟨_, _, rfl⟩ <;> exact hs
  | produce =>
    rcases produceStep_cases h with rfl | ⟨_, _, _, rfl⟩ | ⟨_, _, _, rfl⟩ | ⟨_, _, _, _, rfl⟩ | ⟨_, _, _, rfl⟩
    · exact hs
    all_goals exact nofun
  | serial e =>
    rcases serialStep_cases h with rfl | ⟨_, _, _, rfl⟩ | ⟨_, ph, _, ⟨b, _, _, rfl⟩ | ⟨_, rfl⟩ | ⟨_, rfl⟩⟩
    · exact hs
    · exact nofun
    · intro st
      simp only [State.storeByte] at st
      split at st
      · cases st
      · exact absurd (ph.symm.trans st) (by decide)
    all_goals exact fun _ => rfl
  | read a =>
    obtain ⟨v, d, e⟩ := readStep_eq a { s with pending := rest }
    cases e.symm.trans h
    exact hs
  | reset => cases h; exact fun _ => rfl

/-- R36 of every state a run reaches: besides START and STOP no command changes a register of the producer, CFG included, and
START changes `PROD_PHASE` alone. -/
theorem exec_producer_frame {i : Instr} {s t : State} (h : exec i s = .next t) (hs : s.StoppedCount) :
    (i ≠ .stop → t.rdCount = s.rdCount) ∧ (i ≠ .start → i ≠ .stop → t.prodPhase = s.prodPhase) := by
  rcases exec_producer_cases h with ⟨ph, ct⟩ | ⟨rfl, _⟩ | ⟨rfl, ph, _, ct⟩ | ⟨_, ph, ph', ct⟩
  · exact ⟨fun _ => ct, fun _ _ => ph⟩
  · exact ⟨fun n => absurd rfl n, fun _ n => absurd rfl n⟩
  · exact ⟨fun _ => ct.trans (hs ph).symm, fun n => absurd rfl n⟩
  · exact ⟨fun _ => ct.trans (hs ph).symm, fun _ _ => ph'.trans ph.symm⟩

end Sys2Proof.Machine
end

