-- ==== Sys2Proof/Laws/PerInstr.lean ====
section
/-! SUPPORT. Statements about every instruction, one lemma per constructor (LAWS.json "per_instruction"). -/

namespace Sys2Proof.Laws

/-- A word that agrees with a pattern on a mask, bit by bit. -/
theorem and_eq_of_bits {w mask pattern : Word}
    (h : ∀ i : Fin 32, (w.getLsbD i && mask.getLsbD i) = pattern.getLsbD i) : (w &&& mask == pattern) = true := by
  rw [beq_iff_eq]
  apply BitVec.eq_of_getLsbD_eq
  intro i hi
  rw [BitVec.getLsbD_and]
  exact h ⟨i, hi⟩

/-- The word of an instruction matches its own row of the opcode table (30_encoding.md R92, R94). -/
def EncodeRow.Statement (i : Instr) : Prop := i.row.covers (encode i) = true

theorem EncodeRow.nop : EncodeRow.Statement .nop := by unfold EncodeRow.Statement; decide

theorem EncodeRow.cfg (n : BitVec 12) (p : BitVec 8) : EncodeRow.Statement (.cfg n p) := by
  refine and_eq_of_bits fun i => ?_
  fin_cases i <;> simp [encode, encodeF, placed, Instr.row, Instr.rowIndex, opcodeTable]

theorem EncodeRow.start : EncodeRow.Statement .start := by unfold EncodeRow.Statement; decide

theorem EncodeRow.stop : EncodeRow.Statement .stop := by unfold EncodeRow.Statement; decide

theorem EncodeRow.acquire : EncodeRow.Statement .acquire := by unfold EncodeRow.Statement; decide

theorem EncodeRow.release : EncodeRow.Statement .release := by unfold EncodeRow.Statement; decide

theorem EncodeRow.crcBuild (poly : Half) : EncodeRow.Statement (.crcBuild poly) := by
  refine and_eq_of_bits fun i => ?_
  fin_cases i <;> simp [encode, encodeK, placed, Instr.row, Instr.rowIndex, opcodeTable]

theorem EncodeRow.crcSeed (seed : Half) : EncodeRow.Statement (.crcSeed seed) := by
  refine and_eq_of_bits fun i => ?_
  fin_cases i <;> simp [encode, encodeK, placed, Instr.row, Instr.rowIndex, opcodeTable]

theorem EncodeRow.crcCompute (addr : Half) (len : BitVec 11) : EncodeRow.Statement (.crcCompute addr len) := by
  refine and_eq_of_bits fun i => ?_
  fin_cases i <;> simp [encode, encodeC, placed, Instr.row, Instr.rowIndex, opcodeTable]

theorem EncodeRow.crcComputeInv (addr : Half) (len : BitVec 11) : EncodeRow.Statement (.crcComputeInv addr len) := by
  refine and_eq_of_bits fun i => ?_
  fin_cases i <;> simp [encode, encodeC, placed, Instr.row, Instr.rowIndex, opcodeTable]

theorem EncodeRow.decode : EncodeRow.Statement .decode := by unfold EncodeRow.Statement; decide

theorem EncodeRow.vreset : EncodeRow.Statement .vreset := by unfold EncodeRow.Statement; decide

end Sys2Proof.Laws
end

