-- ==== Sys2Proof/Tests/Slice0.lean ====
section
/-! SUPPORT. Tests. Expected values are the spec's own: the words of 30_encoding.md R92 and R99, and the vectors V-… of
95_test_vectors.md named in the docstrings. At the end, one witness for each obligation that has hypotheses. -/

namespace Sys2Proof.Tests

open Sys2Proof Sys2Proof.Machine

/-! ## Decoding: words written out from R92, R94 -/

theorem test_word_nop : decodeWord 0b00000000000000000000000000000000 = .ok .nop := rfl

/-- `CFG 2, 15` = 0x1002000F (R99). -/
theorem test_word_cfg : decodeWord 0b00010000000000100000000000001111 = .ok (.cfg 2 15) := rfl

theorem test_word_start : decodeWord 0b00100000000000000000000000000000 = .ok .start := rfl

theorem test_word_stop : decodeWord 0b00110000000000000000000000000000 = .ok .stop := rfl

theorem test_word_acquire : decodeWord 0b01000000000000000000000000000000 = .ok .acquire := rfl

theorem test_word_release : decodeWord 0b01010000000000000000000000000000 = .ok .release := rfl

/-- `CRC.BUILD 0x3D65` = 0x60003D65 (R99). -/
theorem test_word_crcBuild : decodeWord 0b01100000000000000011110101100101 = .ok (.crcBuild 0x3D65) := rfl

/-- `CRC.SEED 0xFFFF` = 0x7000FFFF (R99). -/
theorem test_word_crcSeed : decodeWord 0b01110000000000001111111111111111 = .ok (.crcSeed 0xFFFF) := rfl

/-- `CRC.COMPUTE 20, 10` = 0x800A0014 (V-CRC-16). -/
theorem test_word_crcCompute : decodeWord 0b10000000000010100000000000010100 = .ok (.crcCompute 20 10) := rfl

/-- `CRC.COMPUTE.INV 14, 13` = 0x880D000E (R99). -/
theorem test_word_crcComputeInv : decodeWord 0b10001000000011010000000000001110 = .ok (.crcComputeInv 14 13) := rfl

theorem test_word_decode : decodeWord 0b10010000000000000000000000000000 = .ok .decode := rfl

theorem test_word_vreset : decodeWord 0b10100000000000000000000000000000 = .ok .vreset := rfl

/-- V-ENC-8: format C has no reserved bits; LEN and ADDR at their widest. -/
theorem test_word_widest_range : decodeWord 0x8FFFFFFF = .ok (.crcComputeInv 0xFFFF 2047) := rfl

/-- V-ENC-3, V-ENC-4: illegal opcodes, checked before reserved bits. -/
theorem test_word_illegal :
    decodeWord 0xB0000000 = .error .illegalOpcode ∧ decodeWord 0xFFFFFFFF = .error .illegalOpcode := ⟨rfl, rfl⟩

/-- V-ENC-2, V-ENC-5, V-ENC-6, V-ENC-9: reserved bits of each format that has some. -/
theorem test_word_reserved :
    decodeWord 0x00000001 = .error .reservedBits ∧ decodeWord 0x60013D65 = .error .reservedBits ∧
    decodeWord 0x1002010F = .error .reservedBits ∧ decodeWord 0x90000001 = .error .reservedBits := ⟨rfl, rfl, rfl, rfl⟩

/-- The host's reading of a table row: a whole word, and a shorter one with zeros above. -/
theorem test_decodeTableWord :
    decodeTableWord 32 0x1002000F = some (.cfg 2 15) ∧ decodeTableWord 16 0x1002000F = none ∧
    decodeTableWord 32 0xB0000000 = none := ⟨rfl, rfl, rfl⟩

/-- R99's examples as text, and the last words of R100. -/
theorem test_assembler_text :
    assembleLine "CFG 2, 15" = some [0x1002000F] ∧ assembleLine "CRC.BUILD 0x3D65" = some [0x60003D65] ∧
    assembleLine "CRC.COMPUTE.INV 14, 13" = some [0x880D000E] ∧ assembleLine "CRC.PKT 0" = some [0x880D000E] ∧
    assembleLine "CYCLE" = some [0x40000000, 0x90000000, 0x50000000] ∧ assembleLine "CFG 4096, 15" = none ∧
    assembleLine "CFG 2" = none ∧ assembleLine "HALT" = none := by decide +kernel

/-! ## WellFormed: one ill-formed term for each check -/

/-- R99: each operand one above its field. -/
theorem test_asm_operands_too_large :
    [Asm.cfg 4096 0, .cfg 0 256, .crcBuild 0x10000, .crcSeed 0x10000, .crcCompute 0x10000 0, .crcCompute 0 2048,
      .crcComputeInv 0x10000 0, .crcComputeInv 0 2048, .crcSetup 0x10000 0, .crcSetup 0 0x10000, .crcPkt 0xFFF2].all
      (fun l => l.wellFormed == false && assemble l == none) = true := by decide

/-- R99: each operand at its largest. -/
theorem test_asm_operands_largest :
    [Asm.cfg 4095 255, .crcBuild 0xFFFF, .crcSeed 0xFFFF, .crcCompute 0xFFFF 2047, .crcComputeInv 0xFFFF 2047,
      .crcSetup 0xFFFF 0xFFFF, .crcPkt 0xFFF1].all (fun l => l.wellFormed) = true := by decide

/-- R210: positions outside the field region: the sequence bits, the sync byte, the timestamp. -/
theorem test_position_outside_region :
    (BitPos.inRegion ⟨3, 1⟩ || BitPos.inRegion ⟨2, 7⟩ || BitPos.inRegion ⟨10, 0⟩) = false := by decide

/-- R210: a width of 0, a width of 33, a position outside the region. -/
theorem test_descriptor_ill_formed :
    FieldDesc.wellFormed [] = false ∧ FieldDesc.wellFormed (.replicate 33 ⟨4, 0⟩) = false ∧
    FieldDesc.wellFormed [⟨4, 0⟩, ⟨3, 0⟩] = false := by decide

/-- R210: 39 descriptors are too many, and one bad descriptor is enough. -/
theorem test_table_ill_formed :
    Config.wellFormed { Config.default with fieldTable := .replicate 39 [⟨4, 0⟩] } = false ∧
    Config.wellFormed { Config.default with fieldTable := [[⟨4, 0⟩], []] } = false := by decide

/-- R215: the default table is well formed, and outputs each bit of the region exactly once: 44 + 6 bits, and the 4 of
PKT_ERR, which R215's count of 50 leaves out. -/
theorem test_default_table :
    Config.wellFormed Config.default = true ∧ Config.defaultFieldTable.flatten.length = 54 ∧
    Config.defaultFieldTable.flatten.Nodup := by decide +kernel

/-! ## Small states -/

/-- The state of a next-state answer. -/
def after : Result → State
  | .next s => s
  | .fault _ => State.reset
  | .refused _ => State.reset

/-- After `CFG 2, 15`. -/
def ring : State := State.reset.configure 2 15

/-- A producer running on that ring, in the phase given. -/
def running (phase : ProdPhase) : State := { ring with prodPhase := phase }

/-- The arena with the bytes given from address 0 on. -/
def arenaOf (bytes : List Byte) : Memory := bytes.zipIdx.map fun x => (x.2, x.1)

/-- Slot 0 committed with the bytes given, the producer stopped. -/
def filled (bytes : List Byte) : State :=
  { ring with arena := arenaOf bytes, valid := [(0, 1)], wIdx := 1, event := true }

/-- The same, and slot 0 acquired. -/
def holding (bytes : List Byte) : State := (filled bytes).acquireReturn

/-- An ACQUIRE waiting on slot 0. -/
def waiting : State := { ring with consState := .waiting }

/-- The state with turns offered. -/
def offering (s : State) (turns : List Turn) : State := { s with pending := turns }

/-- Some turns taken one after the other. -/
def taking (turns : List Turn) (s : State) : State := turns.foldl (fun u t => after (takeTurn t u)) s

/-- The packet RICH (V-UNP-2). -/
def rich : List Byte := [0x22, 0xD6, 0xAA, 0xB5, 0xC5, 0x3B, 0x9A, 0x81, 0xF0, 0x0F, 0x9A, 0x78, 0x56, 0x34, 0x12]

/-- The packet S1 (95_test_vectors.md section 4.1). -/
def s1 : List Byte := [0xB7, 0x51, 0x55, 0, 0, 0, 0, 0, 0, 0, 0x64, 0, 0, 0, 0]

/-- The packet T100s2. -/
def t100s2 : List Byte := [0x62, 0x85, 0x55, 2, 0, 0, 0, 0, 0, 0, 0x64, 0, 0, 0, 0]

/-- The packet X33, whose sync byte is invalid. -/
def x33 : List Byte := [0x99, 0xE5, 0x33, 3, 0, 0, 0, 0, 0, 0, 0xC8, 0, 0, 0, 0]

/-- The validator after S1 (V-VAL-11's first packet). -/
def afterS1 : Validator :=
  { streaming := true, lastSeq := 0, seqHave := true, lastSync := 0x55, syncHave := true, lastTs := 100 }

/-- ASCII "123456789", as arena bytes of a ring of one 9-byte slot, with the decoder's polynomial built. -/
def digits : State :=
  { State.reset.configure 1 9 with
    arena := arenaOf [0x31, 0x32, 0x33, 0x34, 0x35, 0x36, 0x37, 0x38, 0x39]
    crcTable := tableOf 0x3D65, crcPoly := 0x3D65, crcTableValid := true, crcSeed := 0xFFFF }

/-- S1 in slot 0 with CRC0 set up as for V-CRC-12. -/
def s1Crc : State :=
  { filled s1 with crcTable := tableOf 0x3D65, crcPoly := 0x3D65, crcTableValid := true, crcSeed := 0xFFFF }

/-- V-CRC-26's start state: READ on slot 0 with three bytes stored. -/
def threeBytes : State :=
  { running .read with
    arena := arenaOf [1, 2, 3], rdCount := 3
    crcTable := tableOf 0x3D65, crcPoly := 0x3D65, crcTableValid := true, crcSeed := 0xFFFF }

/-- The fault record of a state. -/
def record (s : State) : Bool × BitVec 8 × Word := (s.faulted, s.faultCode, s.faultCmd)

/-! ## One step of each command -/

/-- V-ENC-1. -/
theorem test_nop : after (step (State.reset.withFetchWord 32 0x00000000)) = State.reset := by decide +kernel

/-- V-FLT-4: 257 · 255 bytes are accepted. -/
theorem test_cfg_largest :
    (fun t : State => (t.cfgDone, t.n, t.p, t.faulted)) (after (step (State.reset.withFetchWord 32 0x110100FF))) =
      (true, 257, 255, false) := by decide

/-- V-FLT-5: BUSY comes before BAD_CONFIG. -/
theorem test_cfg_busy : record (after (step ((running .drain).withFetchWord 32 0x10000000))) = (true, 5, 0x10000000) := by
  decide

/-- R118's example. -/
theorem test_start : (after (exec .start ring)).prodPhase = .drain := by decide

/-- V-RING-15: START in CHECK changes nothing. -/
theorem test_start_again : after (exec .start (running .check)) = running .check := by decide +kernel

/-- V-RING-16: STOP in READ keeps the bytes stored. -/
theorem test_stop :
    (fun t : State => (t.prodPhase, t.rdCount, t.arena, t.wIdx)) (after (exec .stop threeBytes)) =
      (.stopped, 0, arenaOf [1, 2, 3], 0) := by decide

/-- V-RING-2: the ready path returns at once and keeps EVENT. -/
theorem test_acquire_ready :
    (fun t : State => (t.consState, t.acqOffset, t.acqValid, t.event)) (after (exec .acquire (filled s1))) =
      (.holding, 0, true, true) := by decide

/-- V-RING-3: the not-ready path clears EVENT and waits. -/
theorem test_acquire_waits :
    (fun t : State => (t.consState, t.event)) (after (exec .acquire { ring with event := true })) =
      (.waiting, false) := by decide

/-- V-RING-12, case (b) of R130: observed invalid, now valid, nothing is consumed. -/
theorem test_release_keeps :
    (fun t : State => (t.validByte 0, t.rIdx, t.consState)) (after (exec .release { holding s1 with acqValid := false })) =
      (1, 0, .idle) := by decide

/-- R131's example: variant B, N = 3, slot 2. -/
theorem test_release_wraps :
    (fun t : State => (t.valid, t.rIdx))
      (after (exec .release { holding s1 with
        n := 3, rIdx := 2, valid := [(2, 1)], config := { Config.default with variant := .b } })) = ([], 0) := by decide

/-- V-CRC-28: the register words at 0x404 and 0x7FC. -/
theorem test_crcBuild :
    (fun t : State => (t.readPort (.register 0x404), t.readPort (.register 0x7FC), t.crcSeed))
      (after (exec (.crcBuild 0x3D65) State.reset)) = (.value 0x3D65, .value 0xAC48, 0) := by decide +kernel

/-- V-CRC-30. -/
theorem test_crcSeed : (after (exec (.crcSeed 0xFFFF) State.reset)).crcSeed = 0xFFFF := by decide

/-- V-CRC-2. -/
theorem test_crcCompute : (after (exec (.crcCompute 0 9) digits)).crcResult = 0xBBB6 := by decide +kernel

/-- V-CRC-27: the fourth byte was never written, and the fault comes before the draw. -/
theorem test_crcCompute_uninit :
    record (after (exec (.crcCompute 0 4) threeBytes)) = (true, 9, 0x80040000) := by decide +kernel

/-- V-CRC-12: the packet's trailer. -/
theorem test_crcComputeInv : (after (exec (.crcComputeInv 14 13) s1Crc)).crcResult = 0x51B7 := by decide +kernel

/-- V-CRC-22: the range would pass below address 0. -/
theorem test_crcComputeInv_range : record (after (exec (.crcComputeInv 5 7) s1Crc)) = (true, 8, 0x88070005) := by
  decide +kernel

/-- V-VAL-19: all outputs of RICH. -/
theorem test_decode_rich :
    (after (exec .decode (holding rich))).outputs =
      { trigger := true, err := 0, ts := 0x123456789A, seq := 1, sync := 0xAA, crcRx := 0xD622, crcCalc := 0xD622
        field := .ofFn fun j => [0xFC20347C, 0x03, 6, 3, 5, 1, 0x0D].getD j.val 0
        raw := packetOf rich } := by decide +kernel

/-- V-VAL-11, second packet: 0x02, 0x04 and 0x10 together; the time is rejected. -/
theorem test_decode_warnings :
    (fun t : State => (t.outputs.trigger, t.outputs.err, t.validator))
      (after (exec .decode { holding t100s2 with validator := afterS1 })) =
      (true, 0x16, { afterS1 with lastSeq := 2 }) := by decide +kernel

/-- V-FLT-14 and R240: the validator alone is reset. -/
theorem test_vreset :
    after (exec .vreset { filled s1 with validator := afterS1 }) = filled s1 := by decide +kernel

/-! ## The checks, the producer, the read port -/

/-- V-VAL-10, second packet: 0x02 and 0x08 together; the sequence memory is updated, the sync and time memory are not. -/
theorem test_check_invalid_sync :
    checkPacket 0xAA (packetOf x33) afterS1 =
      { err := 0x0A, fatal := true, validator := { afterS1 with lastSeq := 3 } } := by decide +kernel

/-- V-VAL-20: a failed CRC leaves the validator. -/
theorem test_check_bad_crc :
    checkPacket 0xAA (packetOf (rich.set 0 0x23)) .reset = { err := 0x01, fatal := true, validator := .reset } := by
  decide +kernel

/-- V-CRC-10, V-CRC-11: two other polynomials. -/
theorem test_crc_other_polynomials :
    crcRun (tableOf 0x1021) 0xFFFF [0x31, 0x32, 0x33, 0x34, 0x35, 0x36, 0x37, 0x38, 0x39] = 0x29B1 ∧
    crcRun (tableOf 0x8005) 0x0000 [0x31, 0x32, 0x33, 0x34, 0x35, 0x36, 0x37, 0x38, 0x39] = 0xFEE8 := by decide +kernel

/-- V-RING-3: the wake step. -/
theorem test_wake :
    (fun t : State => (t.consState, t.event, t.acqValid))
      (after (takeTurn .wake { waiting with event := true, valid := [(0, 1)] })) = (.holding, false, true) := by decide

/-- V-RING-6: CHECK of a slot still valid. -/
theorem test_check_overrun :
    (fun t : State => (t.ovr, t.ovrCount, t.prodPhase, t.rdCount))
      (after (takeTurn .produce { running .check with valid := [(0, 1)], rdCount := 15 })) =
      (true, 1, .read, 0) := by decide

/-- R150's example: the last byte of slot 1 lands at address 29. -/
theorem test_byte_last :
    (fun t : State => (t.arena, t.rdCount, t.prodPhase, t.acqDirty))
      (after (takeTurn (.serial (.byte 0xAB)) { running .read with wIdx := 1, rdCount := 14 })) =
      ([(29, 0xAB)], 15, .commit, false) := by decide

/-- V-RING-7: a byte into the held slot. -/
theorem test_byte_dirty :
    (fun t : State => (t.arenaRead 0, t.rdCount, t.acqDirty))
      (after (takeTurn (.serial (.byte 0x00)) { holding s1 with prodPhase := .read, wIdx := 0 })) =
      (some 0, 1, true) := by decide

/-- V-RING-8, V-RING-9, V-RING-5: the three early ends of a read. -/
theorem test_early_ends :
    (after (takeTurn (.serial .timeout) threeBytes)).prodPhase = .resync ∧
    (after (takeTurn (.serial .error) (running .read))).prodPhase = .resync ∧
    (after (takeTurn (.serial .timeout) (running .read))).prodPhase = .empty := by decide

/-- R154's example: COMMIT of slot 1 of 2 wraps the index. -/
theorem test_commit_wraps :
    (fun t : State => (t.validByte 1, t.wIdx, t.event)) (after (takeTurn .produce { running .commit with wIdx := 1 })) =
      (1, 0, true) := by decide

/-- V-RING-5: the empty mark in variant A, and nothing but the phase in variant B. -/
theorem test_empty :
    (fun t : State => (t.valid, t.event)) (after (takeTurn .produce { running .empty with valid := [(0, 1)] })) =
      ([], true) ∧
    (fun t : State => (t.valid, t.event)) (after (takeTurn .produce
      { running .empty with valid := [(0, 1)], config := { Config.default with variant := .b } })) =
      ([(0, 1)], false) := by decide

/-- PROG-4: STATUS after its fault. -/
theorem test_status :
    (after (exec (.crcComputeInv 8 10) { digits with crcPoly := 0x1021 })).status = 0x83 := by decide +kernel

/-- V-VAL-19: the OUT_RAW words. -/
theorem test_raw_words :
    (List.range 4).map (rawWord (packetOf rich)) = [0xB5AAD622, 0x819A3BC5, 0x789A0FF0, 0x00123456] := by decide

/-- V-FLT-12: after a fault the word is not accepted; the reset line clears the record. -/
theorem test_fault_until_reset :
    (after (step ((ring.takeFault .protocol 0x50000000).withFetchWord 32 0x30000000))).faulted = true ∧
    after (takeTurn .reset (ring.takeFault .protocol 0x50000000)) = State.reset := by decide +kernel

/-! ## Witnesses: a concrete state and operands for the hypotheses of each obligation, clause by clause -/

/-- A faulted block. -/
def halted : State := ring.takeFault .protocol 0x50000000

theorem witness_OperandsAreReadInPlace :
    decodeWord 0x1FFF00FF = .ok (.cfg 4095 255) ∧ decodeWord 0x6000FFFF = .ok (.crcBuild 0xFFFF) ∧
    decodeWord 0x7000FFFF = .ok (.crcSeed 0xFFFF) ∧ decodeWord 0x87FFFFFF = .ok (.crcCompute 0xFFFF 2047) ∧
    decodeWord 0x8FFFFFFF = .ok (.crcComputeInv 0xFFFF 2047) := ⟨rfl, rfl, rfl, rfl, rfl⟩

/-- A word offered at an open port: what every decode fault presupposes. -/
theorem offered (w : Word) :
    (offering ring [.command w]).faulted = false ∧ (offering ring [.command w]).consState ≠ .waiting ∧
    (offering ring [.command w]).pending = .command w :: [] := ⟨rfl, nofun, rfl⟩

/-- The lowest and the highest illegal word. -/
theorem witness_IllegalOpcodesFault :
    (∀ w, (offering ring [.command w]).faulted = false ∧ (offering ring [.command w]).consState ≠ .waiting ∧
      (offering ring [.command w]).pending = .command w :: []) ∧
    0xB ≤ (0xB0000000 : Word).toNat / 2 ^ 28 ∧ 0xB ≤ (0xFFFFFFFF : Word).toNat / 2 ^ 28 :=
  ⟨offered, by decide, by decide⟩

/-- The lowest and the highest reserved bit of formats Z, K and F, and a word of format C. -/
theorem witness_ReservedBitsFault :
    (∀ w, (offering ring [.command w]).faulted = false ∧ (offering ring [.command w]).consState ≠ .waiting ∧
      (offering ring [.command w]).pending = .command w :: []) ∧
    ((0x00000001 : Word).toNat / 2 ^ 28 = 0x0 ∧ (0x00000001 : Word).toNat % 2 ^ 28 ≠ 0) ∧
    ((0xA8000000 : Word).toNat / 2 ^ 28 = 0xA ∧ (0xA8000000 : Word).toNat % 2 ^ 28 ≠ 0) ∧
    ((0x60010000 : Word).toNat / 2 ^ 28 = 0x6 ∧ (0x60010000 : Word).toNat / 2 ^ 16 % 2 ^ 12 ≠ 0) ∧
    ((0x78000000 : Word).toNat / 2 ^ 28 = 0x7 ∧ (0x78000000 : Word).toNat / 2 ^ 16 % 2 ^ 12 ≠ 0) ∧
    ((0x10000100 : Word).toNat / 2 ^ 28 = 0x1 ∧ (0x10000100 : Word).toNat / 2 ^ 8 % 2 ^ 8 ≠ 0) ∧
    ((0x10008000 : Word).toNat / 2 ^ 28 = 0x1 ∧ (0x10008000 : Word).toNat / 2 ^ 8 % 2 ^ 8 ≠ 0) ∧
    (0x8FFFFFFF : Word).toNat / 2 ^ 28 = 0x8 := ⟨offered, by decide⟩

theorem witness_StepRunsTheDecodedCommand :
    (offering ring [.command 0x40000000]).pending = .command 0x40000000 :: [] ∧ decodeWord 0x40000000 = .ok .acquire ∧
    (offering ring [.command 0x40000000]).faulted = false ∧
    (offering ring [.command 0x40000000]).consState ≠ .waiting ∧
    (offering waiting [.command 0x40000000]).pending = .command 0x40000000 :: [] ∧
    (offering waiting [.command 0x40000000]).consState = .waiting := ⟨rfl, rfl, rfl, nofun, rfl, rfl⟩

theorem witness_FaultedBlockTakesNoStep :
    ∀ u ∈ [Turn.command 0x40000000, .wake, .produce, .serial .quiet, .read (.register 0x004)],
      (offering halted [u]).faulted = true ∧ (offering halted [u]).pending = u :: [] := by decide

theorem witness_FaultLastsUntilReset :
    (offering halted [.produce, .command 0x30000000]).faulted = true ∧
    (∀ u ∈ (offering halted [.produce, .command 0x30000000]).pending, u ≠ Turn.reset) ∧
    (∃ t, Host.Core.run Sys2Proof.core 2 (offering halted [.produce, .command 0x30000000]) = .next t) ∧
    (offering halted [.reset]).pending = .reset :: [] := ⟨rfl, by decide, ⟨_, rfl⟩, rfl⟩

theorem witness_FaultsArePrecise :
    exec .acquire State.reset = .next (State.reset.takeFault .notConfigured 0x40000000) ∧ State.reset.faulted = false ∧
    (State.reset.takeFault .notConfigured 0x40000000).faulted = true := ⟨rfl, rfl, rfl⟩

theorem witness_ResetLineSetsEveryRegister : (offering halted [.reset]).pending = .reset :: [] := rfl

theorem witness_NothingHappensBeforeACommand :
    (∀ u ∈ [Turn.wake, .produce, .serial (.byte 1), .reset], ∀ w, u ≠ Turn.command w) ∧
    ∃ t, Host.Core.run Sys2Proof.core 4
      { State.reset with pending := [.wake, .produce, .serial (.byte 1), .reset] } = .next t := ⟨by simp, _, rfl⟩

theorem witness_NopChangesNothing :
    (offering ring [.command 0]).faulted = false ∧ (offering ring [.command 0]).consState ≠ .waiting ∧
    (offering ring [.command 0]).pending = .command 0 :: [] ∧
    (0x08000001 : Word).toNat / 2 ^ 28 = 0x0 ∧ (0x08000001 : Word).toNat % 2 ^ 28 ≠ 0 := ⟨rfl, nofun, rfl, by decide⟩

/-- A running producer, a held slot; `n = 0`, `p = 0`, one slot too many; the smallest and the largest ring. -/
theorem witness_CfgFollowsItsRule :
    ((running .drain).prodPhase ≠ .stopped ∧ (holding s1).consState ≠ .idle) ∧
    (ring.prodPhase = .stopped ∧ ring.consState = .idle) ∧
    ((0 : BitVec 12) = 0 ∧ (0 : BitVec 8) = 0 ∧ 65536 < (513 : BitVec 12).toNat * (128 : BitVec 8).toNat) ∧
    ((1 : BitVec 12) ≠ 0 ∧ (1 : BitVec 8) ≠ 0 ∧ (512 : BitVec 12).toNat * (128 : BitVec 8).toNat ≤ 65536) := by decide

theorem witness_StartFollowsItsRule :
    State.reset.cfgDone = false ∧ (ring.cfgDone = true ∧ ring.prodPhase = .stopped) ∧
    ((running .check).cfgDone = true ∧ (running .check).prodPhase ≠ .stopped) := by decide

theorem witness_AcquireFollowsItsRule :
    State.reset.cfgDone = false ∧ ((holding s1).cfgDone = true ∧ (holding s1).consState ≠ .idle) ∧
    ((filled s1).cfgDone = true ∧ (filled s1).consState = .idle ∧ (filled s1).rIdx.toNat < (filled s1).n.toNat ∧
      (filled s1).validByte (filled s1).rIdx.toNat ≠ 0) ∧
    (ring.cfgDone = true ∧ ring.consState = .idle ∧ ring.rIdx.toNat < ring.n.toNat ∧
      ring.validByte ring.rIdx.toNat = 0) := by decide

/-- The wake step enabled; a word of each of the three reasons why it is not. -/
theorem witness_WakeFollowsItsRule :
    (fun s : State => s.pending = .wake :: [] ∧ s.consState = .waiting ∧ s.event = true ∧ s.faulted = false ∧
      s.rIdx.toNat < s.n.toNat) (offering { waiting with event := true } [.wake]) ∧
    (offering ring [.wake]).consState ≠ .waiting ∧ (offering waiting [.wake]).event = false ∧
    (offering halted [.wake]).faulted = true := ⟨⟨rfl, rfl, rfl, rfl, by decide⟩, by decide, rfl, rfl⟩

/-- A slot held in a ring of the variant given. -/
def heldIn (v : Variant) (acqValid : Bool) : State :=
  { holding s1 with config := { Config.default with variant := v }, acqValid := acqValid }

theorem witness_ReleaseFollowsItsRule :
    State.reset.cfgDone = false ∧ (ring.cfgDone = true ∧ ring.consState ≠ .holding) ∧
    (∀ v acqValid, (heldIn v acqValid).MemoryForm ∧ (heldIn v acqValid).cfgDone = true ∧
      (heldIn v acqValid).consState = .holding ∧ (heldIn v acqValid).rIdx.toNat < (heldIn v acqValid).n.toNat) ∧
    (heldIn .b false).config.variant = .b ∧
    ((heldIn .a true).acqValid = true ∧ (heldIn .a true).validByte (heldIn .a true).rIdx.toNat ≠ 0) ∧
    ((heldIn .a false).config.variant = .a ∧ (heldIn .a false).acqValid = false) :=
  ⟨rfl, by decide, fun _ _ => ⟨⟨rfl, rfl⟩, rfl, rfl, Nat.zero_lt_two⟩, rfl, by decide, by decide⟩

/-- The whole 9-byte arena; a range in slot 0 while the producer fills slot 1; an empty range beyond the arena. -/
theorem witness_CrcComputeForward :
    (digits.cfgDone = true ∧ digits.crcTableValid = true ∧ digits.prodPhase ≠ .read ∧
      (0 : Half).toNat + (9 : BitVec 11).toNat ≤ digits.n.toNat * digits.p.toNat) ∧
    (fun (s : State) (bytes : List Byte) => s.cfgDone = true ∧ s.crcTableValid = true ∧
      (0 : Half).toNat + (15 : BitVec 11).toNat ≤ s.n.toNat * s.p.toNat ∧ bytes.length = (15 : BitVec 11).toNat ∧
      (∀ (k : Nat) (h : k < bytes.length), s.arenaRead ((0 : Half).toNat + k) = some bytes[k]) ∧
      (∀ k, k < (15 : BitVec 11).toNat →
        ¬ (s.wIdx.toNat * s.p.toNat ≤ (0 : Half).toNat + k ∧ (0 : Half).toNat + k < s.wIdx.toNat * s.p.toNat + s.p.toNat)))
      { s1Crc with prodPhase := .read } s1 ∧
    ((0 : BitVec 11) = 0 ∧ ([] : List Byte).length = (0 : BitVec 11).toNat) :=
  ⟨by decide, ⟨rfl, rfl, by decide, rfl, by decide, by decide⟩, rfl, rfl⟩

/-- The whole arena backwards, down to address 0; and slot 0 while the producer fills slot 1. -/
theorem witness_CrcComputeBackward :
    (digits.cfgDone = true ∧ digits.crcTableValid = true ∧ digits.prodPhase ≠ .read ∧
      (8 : Half).toNat < digits.n.toNat * digits.p.toNat ∧ (9 : BitVec 11).toNat ≤ (8 : Half).toNat + 1) ∧
    (fun (s : State) (bytes : List Byte) => s.cfgDone = true ∧ s.crcTableValid = true ∧
      (14 : Half).toNat < s.n.toNat * s.p.toNat ∧ (15 : BitVec 11).toNat ≤ (14 : Half).toNat + 1 ∧
      bytes.length = (15 : BitVec 11).toNat ∧
      (∀ (k : Nat) (h : k < bytes.length), s.arenaRead ((14 : Half).toNat - k) = some bytes[k]) ∧
      (∀ k, k < (15 : BitVec 11).toNat →
        ¬ (s.wIdx.toNat * s.p.toNat ≤ (14 : Half).toNat - k ∧
          (14 : Half).toNat - k < s.wIdx.toNat * s.p.toNat + s.p.toNat)))
      { s1Crc with prodPhase := .read } s1.reverse ∧
    ((0 : BitVec 11) = 0 ∧ ([] : List Byte).length = (0 : BitVec 11).toNat) :=
  ⟨by decide, ⟨rfl, rfl, by decide, by decide, rfl, by decide, by decide⟩, rfl, rfl⟩

/-- One byte too many forwards and backwards, a start at N·P, and an unwritten byte at the end of the range. -/
theorem witness_CrcComputeFaults :
    State.reset.cfgDone = false ∧ (ring.cfgDone = true ∧ ring.crcTableValid = false) ∧
    (digits.cfgDone = true ∧ digits.crcTableValid = true) ∧
    ((10 : BitVec 11) ≠ 0 ∧ digits.n.toNat * digits.p.toNat < (0 : Half).toNat + (10 : BitVec 11).toNat) ∧
    (digits.n.toNat * digits.p.toNat ≤ (9 : Half).toNat ∧ (8 : Half).toNat + 1 < (10 : BitVec 11).toNat) ∧
    (threeBytes.cfgDone = true ∧ threeBytes.crcTableValid = true) ∧
    ((0 : Half).toNat + (4 : BitVec 11).toNat ≤ threeBytes.n.toNat * threeBytes.p.toNat ∧
      3 < (4 : BitVec 11).toNat ∧ threeBytes.written ((0 : Half).toNat + 3) = false) ∧
    ((3 : Half).toNat < threeBytes.n.toNat * threeBytes.p.toNat ∧ (4 : BitVec 11).toNat ≤ (3 : Half).toNat + 1 ∧
      0 < (4 : BitVec 11).toNat ∧ threeBytes.written ((3 : Half).toNat - 0) = false) := by decide

theorem witness_CrcBuildFollowsItsRule : (0x60003D65 : Word).toNat / 2 ^ 28 = 0x6 := by decide

theorem witness_CrcSeedFollowsItsRule : (0x7000FFFF : Word).toNat / 2 ^ 28 = 0x7 := by decide

theorem witness_LiveRangeGivesSomeResult :
    threeBytes.cfgDone = true ∧ threeBytes.crcTableValid = true ∧ threeBytes.prodPhase = .read ∧
    (0 : Half).toNat + (3 : BitVec 11).toNat ≤ threeBytes.n.toNat * threeBytes.p.toNat ∧
    (∀ k, k < (3 : BitVec 11).toNat → threeBytes.written ((0 : Half).toNat + k) = true) ∧
    (0 < (3 : BitVec 11).toNat ∧ threeBytes.wIdx.toNat * threeBytes.p.toNat ≤ (0 : Half).toNat + 0 ∧
      (0 : Half).toNat + 0 < threeBytes.wIdx.toNat * threeBytes.p.toNat + threeBytes.p.toNat) ∧
    (2 : Half).toNat < threeBytes.n.toNat * threeBytes.p.toNat ∧ (3 : BitVec 11).toNat ≤ (2 : Half).toNat + 1 ∧
    (∀ k, k < (3 : BitVec 11).toNat → threeBytes.written ((2 : Half).toNat - k) = true) ∧
    (threeBytes.wIdx.toNat * threeBytes.p.toNat ≤ (2 : Half).toNat - 0 ∧
      (2 : Half).toNat - 0 < threeBytes.wIdx.toNat * threeBytes.p.toNat + threeBytes.p.toNat) := by decide

theorem witness_CrcRoundTripIsZero : packetTrailer (packetOf s1) = packetCrc (packetOf s1) := by decide +kernel

theorem witness_PacketCrcIsTheInvertedRange :
    0 + 14 ≤ 0xFFFF ∧ ∀ k : Fin 15, (filled rich).arenaRead (0 + k.val) = some (packetOf rich)[k] := by decide

theorem witness_UnpackPlacesEveryBit : Config.default.wellFormed = true := by decide

theorem witness_DecodeEntryChecks :
    State.reset.cfgDone = false ∧ (ring.cfgDone = true ∧ ring.consState ≠ .holding) ∧
    ((holding s1).decodeDisabled.cfgDone = true ∧ (holding s1).decodeDisabled.decoded = true) ∧
    (fun s : State => s.cfgDone = true ∧ s.consState = .holding ∧ s.decoded = false ∧ s.p ≠ 15)
      { holding s1 with p := 14 } := ⟨rfl, by decide, by decide, rfl, rfl, rfl, by decide⟩

theorem holding_rich_holdsPacket : (holding rich).HoldsPacket (packetOf rich) where
  configured := rfl
  holding := rfl
  fresh := rfl
  size := rfl
  enabled := .inr rfl
  clean := rfl
  quiet := .inr (by decide)
  inUse := by decide
  bytes := by decide

theorem holding_x33_holdsPacket : (holding x33).HoldsPacket (packetOf x33) where
  configured := rfl
  holding := rfl
  fresh := rfl
  size := rfl
  enabled := .inr rfl
  clean := rfl
  quiet := .inl (by decide)
  inUse := by decide
  bytes := by decide

theorem holding_badCrc_holdsPacket : (holding (rich.set 0 0x23)).HoldsPacket (packetOf (rich.set 0 0x23)) where
  configured := rfl
  holding := rfl
  fresh := rfl
  size := rfl
  enabled := .inr rfl
  clean := rfl
  quiet := .inl (by decide)
  inUse := by decide
  bytes := by decide

/-- Enabled in variant A; disabled in variant A. -/
theorem witness_DisabledDecodeClearsTheOutputs :
    ((holding rich).HoldsPacket (packetOf rich) ∧ (holding rich).config.variant = .a ∧ (holding rich).acqValid = true) ∧
    (fun s : State => s.cfgDone = true ∧ s.consState = .holding ∧ s.decoded = false ∧ s.p = 15 ∧
      s.config.variant = .a ∧ s.acqValid = false) (heldIn .a false) :=
  ⟨⟨holding_rich_holdsPacket, rfl, rfl⟩, rfl, rfl, rfl, rfl, rfl, rfl⟩

theorem witness_DecodeOutputsThePacket : (holding rich).HoldsPacket (packetOf rich) := holding_rich_holdsPacket

/-- A bad CRC; a good one with an invalid sync byte; a good one with a valid sync byte. -/
theorem witness_DecodeChecksThePacket :
    ((holding (rich.set 0 0x23)).HoldsPacket (packetOf (rich.set 0 0x23)) ∧
      packetCrc (packetOf (rich.set 0 0x23)) ≠ packetTrailer (packetOf (rich.set 0 0x23))) ∧
    ((holding x33).HoldsPacket (packetOf x33) ∧ packetCrc (packetOf x33) = packetTrailer (packetOf x33) ∧
      (packetOf x33)[2] ≠ 0x55 ∧ (packetOf x33)[2] ≠ (holding x33).config.syncB) ∧
    ((holding rich).HoldsPacket (packetOf rich) ∧ packetCrc (packetOf rich) = packetTrailer (packetOf rich) ∧
      (packetOf rich)[2] = (holding rich).config.syncB) :=
  ⟨⟨holding_badCrc_holdsPacket, by decide +kernel⟩,
    ⟨holding_x33_holdsPacket, by decide +kernel, by decide, by decide⟩,
    ⟨holding_rich_holdsPacket, by decide +kernel, by decide⟩⟩

/-- A held slot whose last byte is unwritten; a dirty one; one the producer is filling. -/
theorem witness_TornDecodeUsesSomePacket :
    (fun s : State => s.cfgDone = true ∧ s.consState = .holding ∧ s.decoded = false ∧ s.p = 15 ∧ s.acqValid = true ∧
      s.acqOffset.toNat + 15 ≤ s.n.toNat * s.p.toNat ∧ 14 < 15 ∧ s.written (s.acqOffset.toNat + 14) = false)
      (holding (s1.take 14)) ∧
    (fun s : State => s.cfgDone = true ∧ s.consState = .holding ∧ s.decoded = false ∧ s.p = 15 ∧ s.acqValid = true ∧
      s.acqOffset.toNat + 15 ≤ s.n.toNat * s.p.toNat ∧ (∀ k, k < 15 → s.written (s.acqOffset.toNat + k) = true) ∧
      s.acqDirty = true ∧ s.prodPhase = .read ∧ s.wIdx = s.rIdx)
      { holding s1 with acqDirty := true, prodPhase := .read, wIdx := 0 } :=
  ⟨⟨rfl, rfl, rfl, rfl, rfl, by decide, by decide, by decide⟩,
    rfl, rfl, rfl, rfl, rfl, by decide, by decide, rfl, rfl, rfl⟩

theorem witness_ReachableErrorCodes :
    exec .decode (holding rich) = .next ((holding rich).decodeBytes rich) ∧ (holding rich).faulted = false ∧
    ((holding rich).decodeBytes rich).faulted = false ∧ (holding rich).acqValid = true := ⟨rfl, rfl, rfl, rfl⟩

theorem witness_VresetMakesTheNextPacketFirst :
    exec .vreset (holding rich) = .next (holding rich) ∧
    exec .decode (holding rich) = .next ((holding rich).decodeBytes rich) ∧ (holding rich).faulted = false ∧
    ((holding rich).decodeBytes rich).faulted = false ∧ (0xA0000001 : Word).toNat / 2 ^ 28 = 0xA :=
  ⟨rfl, rfl, rfl, rfl, by decide⟩

theorem witness_DrainAndResyncWaitForQuiet :
    ∀ phase ∈ [ProdPhase.drain, .resync], ∀ e ∈ [SerialInput.byte 1, .error, .quiet],
      (offering (running phase) [.serial e]).faulted = false ∧
      ((offering (running phase) [.serial e]).prodPhase = .drain ∨
        (offering (running phase) [.serial e]).prodPhase = .resync) ∧
      (offering (running phase) [.serial e]).pending = .serial e :: [] := by decide

/-- A free slot and a valid one. -/
theorem witness_CheckReportsOverruns :
    (fun s : State => s.faulted = false ∧ s.prodPhase = .check ∧ s.pending = .produce :: [] ∧
      s.wIdx.toNat < s.n.toNat ∧ s.validByte s.wIdx.toNat = 0) (offering (running .check) [.produce]) ∧
    (fun s : State => s.faulted = false ∧ s.prodPhase = .check ∧ s.pending = .produce :: [] ∧
      s.wIdx.toNat < s.n.toNat ∧ s.validByte s.wIdx.toNat ≠ 0)
      (offering { running .check with valid := [(0, 1)] } [.produce]) :=
  ⟨⟨rfl, rfl, rfl, by decide, by decide⟩, rfl, rfl, rfl, by decide, by decide⟩

/-- The last byte of the last slot. -/
theorem witness_ReadStoresOneByte :
    (fun s : State => s.faulted = false ∧ s.prodPhase = .read ∧ s.rdCount.toNat < s.p.toNat ∧
      s.wIdx.toNat < s.n.toNat ∧ s.pending = .serial (.byte 0xAB) :: [])
      (offering { running .read with wIdx := 1, rdCount := 14 } [.serial (.byte 0xAB)]) :=
  ⟨rfl, rfl, by decide, by decide, rfl⟩

/-- Nothing read yet, and three bytes read. -/
theorem witness_EarlyEndOfARead :
    ∀ e ∈ [SerialInput.timeout, .error],
      ((offering (running .read) [.serial e]).faulted = false ∧
        (offering (running .read) [.serial e]).prodPhase = .read ∧
        (offering (running .read) [.serial e]).rdCount.toNat < (offering (running .read) [.serial e]).p.toNat ∧
        (offering (running .read) [.serial e]).pending = .serial e :: [] ∧
        (offering (running .read) [.serial e]).rdCount = 0) ∧
      ((offering threeBytes [.serial e]).faulted = false ∧ (offering threeBytes [.serial e]).prodPhase = .read ∧
        (offering threeBytes [.serial e]).rdCount.toNat < (offering threeBytes [.serial e]).p.toNat ∧
        (offering threeBytes [.serial e]).pending = .serial e :: [] ∧
        (offering threeBytes [.serial e]).rdCount ≠ 0) := by decide

/-- The last slot. -/
theorem witness_CommitPublishesTheSlot :
    (fun s : State => s.MemoryForm ∧ s.faulted = false ∧ s.prodPhase = .commit ∧ s.wIdx.toNat < s.n.toNat ∧
      s.pending = .produce :: []) (offering { running .commit with wIdx := 1, valid := [(0, 1)] } [.produce]) :=
  ⟨⟨rfl, rfl⟩, rfl, rfl, by decide, rfl⟩

theorem witness_EmptyMarksOnlyInVariantA :
    (fun s : State => s.MemoryForm ∧ s.faulted = false ∧ s.prodPhase = .empty ∧ s.pending = .produce :: [] ∧
      s.config.variant = .a ∧ s.wIdx.toNat < s.n.toNat) (offering (running .empty) [.produce]) ∧
    (fun s : State => s.MemoryForm ∧ s.faulted = false ∧ s.prodPhase = .empty ∧ s.pending = .produce :: [] ∧
      s.config.variant = .b)
      (offering { running .empty with config := { Config.default with variant := .b } } [.produce]) :=
  ⟨⟨⟨rfl, rfl⟩, rfl, rfl, rfl, rfl, by decide⟩, ⟨rfl, rfl⟩, rfl, rfl, rfl, rfl⟩

theorem witness_WholeReadFillsTheSlot :
    (fun s : State => s.MemoryForm ∧ s.faulted = false ∧ s.prodPhase = .check ∧ s.wIdx.toNat < s.n.toNat ∧
      rich.length = s.p.toNat ∧ 0 < s.p.toNat ∧
      s.pending = .produce :: (rich.map fun b => Turn.serial (.byte b)) ++ .produce :: [])
      (offering { running .check with wIdx := 1 }
        (.produce :: (rich.map fun b => Turn.serial (.byte b)) ++ .produce :: [])) :=
  ⟨⟨rfl, rfl⟩, rfl, rfl, by decide, rfl, by decide, rfl⟩

/-- A COMMIT and an empty mark on slot `R_IDX`, with the consumer idle and waiting; and CHECK of a valid slot `R_IDX`. -/
theorem witness_NoLostWakeup :
    (∀ phase ∈ [ProdPhase.commit, .empty], ∀ cons ∈ [ConsState.idle, .waiting],
      (fun s : State => s.MemoryForm ∧ s.faulted = false ∧ s.cfgDone = true ∧ s.wIdx.toNat < s.n.toNat ∧
        s.rIdx.toNat < s.n.toNat ∧ s.pending = .produce :: [] ∧ (∃ t, step s = .next t) ∧ s.prodPhase = phase ∧
        s.wIdx = s.rIdx ∧ s.consState = cons ∧ s.config.variant = .a)
        (offering { running phase with consState := cons } [.produce])) ∧
    (fun s : State => s.MemoryForm ∧ s.pending = .produce :: [] ∧ (∃ t, step s = .next t) ∧
      (∀ w, Turn.produce ≠ .command w) ∧ Turn.produce ≠ .reset ∧
      ¬ (s.prodPhase = .empty ∧ s.config.variant = .a ∧ s.wIdx = s.rIdx) ∧ s.validByte s.rIdx.toNat ≠ 0)
      (offering { running .check with valid := [(0, 1)] } [.produce]) := by
  have two : (0 : BitVec 12).toNat < (2 : BitVec 12).toNat := by decide
  refine ⟨?_, ⟨rfl, rfl⟩, rfl, ⟨_, rfl⟩, fun _ => nofun, nofun, by decide, by decide⟩
  simp only [List.mem_cons, List.not_mem_nil, or_false]
  rintro _ (rfl | rfl) _ (rfl | rfl) <;> exact ⟨⟨rfl, rfl⟩, rfl, rfl, two, two, rfl, ⟨_, rfl⟩, rfl, rfl, rfl, rfl⟩

theorem witness_NothingIsPublishedBeforeQuiet :
    ∀ phase ∈ [ProdPhase.resync, .drain, .stopped],
      (fun s : State => s.MemoryForm ∧ (s.prodPhase = .resync ∨ s.prodPhase = .drain ∨ s.prodPhase = .stopped) ∧
        (∀ u ∈ s.pending, u ≠ Turn.serial .quiet) ∧ ∃ t, Host.Core.run Sys2Proof.core 2 s = .next t)
        (offering (running phase) [.serial (.byte 0x99), .serial .error]) := by
  simp only [List.mem_cons, List.not_mem_nil, or_false]
  rintro _ (rfl | rfl | rfl) <;> exact ⟨⟨rfl, rfl⟩, by decide, by decide, _, rfl⟩

theorem witness_WaitsUntilResetWithoutAPost :
    (fun s : State => s.consState = .waiting ∧ s.event = false ∧ s.prodPhase = .stopped ∧
      (∀ u ∈ s.pending, u ≠ Turn.reset) ∧ Host.Core.run Sys2Proof.core 2 s = .next waiting)
      (offering waiting [.wake, .command 0x30000000]) := ⟨rfl, rfl, rfl, by decide, rfl⟩

theorem witness_ReadPortHasNoSideEffect :
    (offering halted [.read (.register 0x004)]).pending = .read (.register 0x004) :: [] ∧
    (offering halted [.read (.register 0x004)]).readPort (.register 0x004) = .value halted.status ∧
    (1 : BitVec 12).toNat < (filled s1).n.toNat ∧ (14 : Half).toNat < (filled s1).n.toNat * (filled s1).p.toNat ∧
    (filled s1).arenaRead (14 : Half).toNat = some 0 := ⟨rfl, rfl, by decide⟩

/-- Each clause at the ends of its range. -/
theorem witness_ReadPortAtUndefinedPlaces :
    ((offering ring [.read (.arena 29)]).pending = .read (.arena 29) :: [] ∧
      (offering ring [.read (.arena 29)]).readPort (.arena 29) = .draw 8) ∧
    ((29 : Half).toNat < ring.n.toNat * ring.p.toNat ∧ ring.written (29 : Half).toNat = false) ∧
    (ring.n.toNat * ring.p.toNat ≤ (30 : Half).toNat) ∧ (ring.n.toNat ≤ (2 : BitVec 12).toNat) ∧
    (ring.crcTableValid = false ∧ 0x400 ≤ (0x400 : BitVec 12).toNat ∧ (0x7FF : BitVec 12).toNat < 0x800) ∧
    (0x110 ≤ (0x110 : BitVec 12).toNat ∧ (0x3FF : BitVec 12).toNat < 0x400 ∧ 0xC00 ≤ (0xC00 : BitVec 12).toNat) := by
  decide

theorem witness_RegisterMap :
    s1Crc.crcTableValid = true ∧ ring.crcTableValid = false ∧ 4 ≤ (4 : BitVec 12).toNat ∧ (0x10F : BitVec 12).toNat < 0x110 :=
  ⟨rfl, rfl, by decide⟩

theorem witness_CommandsWriteOnlyTheirOwn :
    exec .nop ring = .next ring ∧ (∀ n p, Instr.nop ≠ .cfg n p) ∧ Instr.nop ≠ .release ∧ Instr.nop ≠ .start ∧
    Instr.nop ≠ .stop ∧ (∀ poly, Instr.nop ≠ .crcBuild poly) ∧ (∀ seed, Instr.nop ≠ .crcSeed seed) ∧
    (∀ a l, Instr.nop ≠ .crcCompute a l) ∧ (∀ a l, Instr.nop ≠ .crcComputeInv a l) ∧ Instr.nop ≠ .decode ∧
    Instr.nop ≠ .vreset := by simp [exec, execNop]

/-- A configured ring is well shaped in every phase, whatever is offered. -/
theorem running_ringInv (phase : ProdPhase) (turns : List Turn) : (offering (running phase) turns).RingInv where
  sized := fun _ => ⟨Nat.le_succ 1, Nat.le_add_left 1 14, (by decide : 2 * 15 ≤ 65536)⟩
  indices := fun _ => ⟨Nat.zero_lt_two, Nat.zero_lt_two⟩
  unconfigured := nofun
  flags := fun _ => .inl rfl
  bytes := nofun
  count := (by decide : (0 : BitVec 8) ≤ 15)
  reading := fun _ => (by decide : (0 : BitVec 8) < 15)
  held := nofun

theorem witness_StepKeepsTheMemoryForm :
    (offering (running .commit) [.produce]).MemoryForm ∧ ∃ t, step (offering (running .commit) [.produce]) = .next t :=
  ⟨⟨rfl, rfl⟩, _, rfl⟩

theorem witness_StepKeepsTheRing :
    (offering (running .commit) [.produce]).MemoryForm ∧ (offering (running .commit) [.produce]).RingInv ∧
    ∃ t, step (offering (running .commit) [.produce]) = .next t := ⟨⟨rfl, rfl⟩, running_ringInv _ _, _, rfl⟩

/-- A block with a table built, about to take a VRESET. -/
theorem witness_StepKeepsReservedBitsAndTable :
    (offering s1Crc [.command 0xA0000000]).ReservedZero ∧ (offering s1Crc [.command 0xA0000000]).TableInv ∧
    ∃ t, step (offering s1Crc [.command 0xA0000000]) = .next t :=
  ⟨⟨by decide, by decide, by decide, fun _ => ⟨rfl, rfl⟩, by decide⟩, fun _ => rfl, _, rfl⟩

theorem witness_WellShapedRingNeverStops : (offering (running .read) [.serial (.byte 1)]).RingInv := running_ringInv _ _

/-- An execution that is in `u` from its second state on. -/
def settles (s u : State) : Nat → State
  | 0 => s
  | _ + 1 => u

theorem settles_execution {t : Turn} {s u : State} (first : takeTurn t s = .next u) (rest : takeTurn t u = .next u) :
    Execution (fun _ => t) (settles s u)
  | 0 => first
  | _ + 1 => rest

theorem witness_PostedConsumerWakes :
    ∃ r, Execution (fun _ => .wake) r ∧ NoReset (fun _ => .wake) ∧ WakeFair (fun _ => .wake) r ∧
      (r 0).consState = .waiting ∧ (r 0).event = true ∧ (r 0).faulted = false :=
  ⟨settles { waiting with event := true } waiting.acquireReturn, settles_execution rfl rfl, fun _ => nofun,
    fun k _ => ⟨k, Nat.le_refl k, rfl⟩, rfl, rfl, rfl⟩

/-- An execution that is in `u` in its second state and in `v` from its third on. -/
def settlesLater (s u v : State) : Nat → State
  | 0 => s
  | 1 => u
  | _ + 2 => v

theorem settlesLater_execution {t : Turn} {s u v : State} (first : takeTurn t s = .next u)
    (second : takeTurn t u = .next v) (rest : takeTurn t v = .next v) :
    Execution (fun _ => t) (settlesLater s u v)
  | 0 => first
  | 1 => second
  | _ + 2 => rest

/-- What the test ring is after COMMIT of slot 0, in the phase given. -/
def committed (phase : ProdPhase) : State := { running phase with valid := [(0, 1)], wIdx := 1, event := true }

/-- A read ended by an error; and each internal phase left by its own step. -/
theorem witness_ProducerPhasesEnd :
    (∃ r, Execution (fun _ => .serial .error) r ∧ ReadFair (fun _ => .serial .error) r ∧ (r 0).RingInv ∧
      (r 0).prodPhase = .read) ∧
    (∀ phase ∈ [ProdPhase.check, .commit, .empty],
      ∃ r, Execution (fun _ => .produce) r ∧ InternalFair (fun _ => .produce) r ∧ (r 0).prodPhase = phase) := by
  refine ⟨⟨settles (running .read) (running .resync), settles_execution rfl rfl,
    fun k _ => ⟨k, Nat.le_refl k, rfl⟩, running_ringInv .read [], rfl⟩, ?_⟩
  have fair (r : Nat → State) : InternalFair (fun _ => .produce) r := fun k _ => ⟨k, Nat.le_refl k, rfl⟩
  simp only [List.mem_cons, List.not_mem_nil, or_false]
  rintro _ (rfl | rfl | rfl)
  · exact ⟨settles (running .check) (running .read), settles_execution rfl rfl, fair _, rfl⟩
  · exact ⟨settlesLater (running .commit) (committed .check) (committed .read), settlesLater_execution rfl rfl rfl,
      fair _, rfl⟩
  · exact ⟨settlesLater (running .empty) { running .check with event := true } { running .read with event := true },
      settlesLater_execution rfl rfl rfl, fair _, rfl⟩

end Sys2Proof.Tests
end

/-! Proofs of the family 00_scope: every step keeps the ring well shaped (O56). First what `State.RingInv` reads of a state
and what the ring's arithmetic gives, then one lemma per kind of update, then commands, agents and the step. -/

namespace Sys2Proof.Machine

/-! ## What the ring invariant reads -/

/-- The state with only the registers that `State.RingInv` reads; all others as after reset. -/
def State.ringRegisters (s : State) : State :=
  { State.reset with
    cfgDone := s.cfgDone, n := s.n, p := s.p, wIdx := s.wIdx, rIdx := s.rIdx, valid := s.valid, arena := s.arena
    prodPhase := s.prodPhase, rdCount := s.rdCount, consState := s.consState, acqOffset := s.acqOffset }

theorem State.ringInv_ringRegisters (s : State) : s.ringRegisters.RingInv ↔ s.RingInv :=
  ⟨fun h => ⟨h.sized, h.indices, h.unconfigured, h.flags, h.bytes, h.count, h.reading, h.held⟩,
    fun h => ⟨h.sized, h.indices, h.unconfigured, h.flags, h.bytes, h.count, h.reading, h.held⟩⟩

/-- The frame rule of the invariant: an update of other registers keeps it. -/
theorem State.RingInv.congr {s t : State} (hs : s.RingInv) (e : t.ringRegisters = s.ringRegisters) : t.RingInv := by
  rw [← State.ringInv_ringRegisters] at hs ⊢
  rwa [e]

/-- A producer that runs, runs on a configured ring. -/
theorem State.RingInv.configured_of_running {s : State} (hs : s.RingInv) (ph : s.prodPhase ≠ .stopped) :
    s.cfgDone = true := by
  by_contra c
  exact ph (hs.unconfigured (by simpa using c)).1

/-- A consumer that waits or holds does so on a configured ring. -/
theorem State.RingInv.configured_of_busy {s : State} (hs : s.RingInv) (cs : s.consState ≠ .idle) :
    s.cfgDone = true := by
  by_contra c
  exact cs (hs.unconfigured (by simpa using c)).2.1

/-! ## Slots and their bytes -/

theorem State.slotExists_iff (s : State) (i : BitVec 12) : s.slotExists i = true ↔ i.toNat < s.n.toNat := by
  simp [State.slotExists]

/-- A slot lies whole within the N·P bytes in use (R27, R62). -/
theorem State.slotBase_add_size_le {s : State} {i : BitVec 12} (h : i.toNat < s.n.toNat) :
    s.slotBase i + s.p.toNat ≤ s.arenaSize := by
  calc s.slotBase i + s.p.toNat = (i.toNat + 1) * s.p.toNat := (Nat.succ_mul _ _).symm
    _ ≤ s.arenaSize := Nat.mul_le_mul_right _ h

/-- The index after any index is again below N (R25). -/
theorem State.nextSlot_lt {s : State} (i : BitVec 12) (h : 0 < s.n.toNat) : (s.nextSlot i).toNat < s.n.toNat := by
  have lt : (i.toNat + 1) % s.n.toNat < s.n.toNat := Nat.mod_lt _ h
  rw [State.nextSlot, BitVec.toNat_ofNat, Nat.mod_eq_of_lt (lt.trans s.n.isLt)]
  exact lt

/-- A slot's offset fits `ACQ_OFFSET`: N·P is at most 65536 and a slot is not empty (R8, R41). -/
theorem State.RingInv.slotBase_toNat {s : State} (hs : s.RingInv) (cd : s.cfgDone = true) {i : BitVec 12}
    (h : i.toNat < s.n.toNat) : (BitVec.ofNat 16 (s.slotBase i)).toNat = s.slotBase i := by
  obtain ⟨_, pos, size⟩ := hs.sized cd
  have slot := State.slotBase_add_size_le h
  have fits : s.slotBase i < 2 ^ 16 := by
    simp only [Config.arenaMax] at size
    omega
  rw [BitVec.toNat_ofNat, Nat.mod_eq_of_lt fits]

theorem badRing_eq_false_iff (n : BitVec 12) (p : BitVec 8) :
    badRing n p = false ↔ 1 ≤ n.toNat ∧ 1 ≤ p.toNat ∧ n.toNat * p.toNat ≤ Config.arenaMax := by
  have pos {w : Nat} (x : BitVec w) : x ≠ 0#w ↔ 1 ≤ x.toNat := by
    rw [Ne, ← BitVec.toNat_inj, BitVec.toNat_ofNat, Nat.zero_mod, Nat.one_le_iff_ne_zero]
  simp [badRing, pos, and_assoc]

/-! ## The updates of the ring -/

/-- The reset line leaves an unconfigured, empty ring (R280). -/
theorem State.resetLine_ringInv (s : State) : s.resetLine.RingInv where
  sized := nofun
  indices := nofun
  unconfigured := fun _ => ⟨rfl, rfl, rfl, rfl⟩
  flags := fun _ => .inl rfl
  bytes := nofun
  count := BitVec.le_def.2 (Nat.zero_le _)
  reading := nofun
  held := nofun

/-- An accepted CFG leaves an empty ring of an allowed size (R116). -/
theorem State.configure_ringInv {s : State} {n : BitVec 12} {p : BitVec 8} (ring : badRing n p = false)
    (ph : s.prodPhase = .stopped) (cs : s.consState = .idle) : (s.configure n p).RingInv := by
  obtain ⟨hn, hp, size⟩ := (badRing_eq_false_iff n p).1 ring
  exact {
    sized := fun _ => ⟨hn, hp, size⟩
    indices := fun _ => ⟨hn, hn⟩
    unconfigured := nofun
    flags := fun _ => .inl rfl
    bytes := nofun
    count := BitVec.le_def.2 (Nat.zero_le _)
    reading := fun rd => by simp [ph] at rd
    held := fun h => by simp [cs] at h }

/-- The producer's phase changes to one that does not read. -/
theorem State.RingInv.setPhase {s : State} (hs : s.RingInv) (cd : s.cfgDone = true) {ph : ProdPhase}
    (h : ph ≠ .read) : { s with prodPhase := ph }.RingInv :=
  { hs with
    unconfigured := fun c => nomatch cd.symm.trans c
    reading := fun rd => absurd rd h }

/-- The producer enters a phase with no byte read: any phase on a configured ring, where a slot has room for a byte. -/
theorem State.RingInv.enterPhase {s : State} (hs : s.RingInv) {ph : ProdPhase}
    (h : s.cfgDone = true ∨ ph = .stopped) : { s with prodPhase := ph, rdCount := 0 }.RingInv :=
  { hs with
    unconfigured := fun c => by
      obtain ⟨_, unconf⟩ := hs.unconfigured c
      exact ⟨h.resolve_left (fun cd => nomatch cd.symm.trans c), unconf⟩
    count := BitVec.le_def.2 (Nat.zero_le _)
    reading := fun (rd : ph = .read) => by
      have cd : s.cfgDone = true := h.resolve_right fun e => nomatch e.symm.trans rd
      obtain ⟨_, pos, _⟩ := hs.sized cd
      exact BitVec.lt_def.2 pos }

theorem State.RingInv.setWIdx {s : State} (hs : s.RingInv) {i : BitVec 12} (h : i.toNat < s.n.toNat) :
    { s with wIdx := i }.RingInv :=
  { hs with indices := fun c => ⟨h, (hs.indices c).2⟩ }

/-- `R_IDX` may move while no slot is held. -/
theorem State.RingInv.setRIdx {s : State} (hs : s.RingInv) {i : BitVec 12} (h : i.toNat < s.n.toNat)
    (cs : s.consState ≠ .holding) : { s with rIdx := i }.RingInv :=
  { hs with
    indices := fun c => ⟨(hs.indices c).1, h⟩
    held := fun hold => absurd hold cs }

/-- The consumer of a configured ring comes to hold no slot. -/
theorem State.RingInv.setConsState {s : State} (hs : s.RingInv) (cd : s.cfgDone = true) {cs : ConsState}
    (h : cs ≠ .holding) : { s with consState := cs }.RingInv :=
  { hs with
    unconfigured := fun c => nomatch cd.symm.trans c
    held := fun hold => absurd hold h }

/-- `AcquireReturn()` records the offset of the slot `R_IDX` names (R126). -/
theorem State.RingInv.acquireReturn {s : State} (hs : s.RingInv) (cd : s.cfgDone = true)
    (h : s.slotExists s.rIdx = true) : s.acquireReturn.RingInv :=
  { hs with
    unconfigured := fun c => nomatch cd.symm.trans c
    held := fun _ => hs.slotBase_toNat cd ((s.slotExists_iff _).1 h) }

/-- A flag of an existing slot is written 0x00 or 0x01 (R26). -/
theorem State.RingInv.setValid {s : State} (hs : s.RingInv) (wf : Memory.wf s.valid = true) (cd : s.cfgDone = true)
    {i : Nat} {v : Byte} (hi : i < s.n.toNat) (hv : v = 0 ∨ v = 1) : (s.setValid i v).RingInv :=
  { hs with
    unconfigured := fun c => nomatch cd.symm.trans c
    flags := fun j => by
      rw [State.validByte_setValid wf]
      split
      · next e => exact hv.imp_right fun one => ⟨one, e ▸ hi⟩
      · exact hs.flags j }

/-- Read after an arena write: what is written is the new byte's address and what was written before. -/
theorem State.written_storeByte (s : State) (b : Byte) (a : Nat) :
    (s.storeByte b).written a = true ↔ a = s.slotBase s.wIdx + s.rdCount.toNat ∨ s.written a = true := by
  simp only [State.written, State.storeByte_arena, Memory.find_put]
  split <;> simp [*]

/-- A byte stored while the slot has room stays in the slot, and the slot's last byte ends READ (R150). -/
theorem State.RingInv.storeByte {s : State} (hs : s.RingInv) (ph : s.prodPhase = .read) (lt : s.rdCount < s.p)
    (h : s.slotExists s.wIdx = true) (b : Byte) : (s.storeByte b).RingInv :=
  { hs with
    unconfigured := fun c => nomatch (hs.configured_of_running (by simp [ph])).symm.trans c
    bytes := fun a wr => by
      rcases (s.written_storeByte b a).1 wr with rfl | old
      · have slot := State.slotBase_add_size_le ((s.slotExists_iff _).1 h)
        have room := BitVec.lt_def.1 lt
        exact lt_of_lt_of_le (Nat.add_lt_add_left room _) slot
      · exact hs.bytes a old
    count := by
      rw [State.storeByte_rdCount, State.storeByte_p]
      bv_omega
    reading := fun rd => by
      rw [State.storeByte_prodPhase] at rd
      rw [State.storeByte_rdCount, State.storeByte_p]
      split at rd
      · cases rd
      · next more => bv_omega }

/-! ## Commands -/

theorem State.MemoryForm.valid_wf {s : State} (h : s.MemoryForm) : Memory.wf s.valid = true :=
  ((Memory.flagsWf_iff _).1 h.2).1

theorem State.RingInv.takeFault {s : State} (hs : s.RingInv) (code : FaultCode) (w : Word) :
    (s.takeFault code w).RingInv := hs.congr rfl

theorem execCfg_ringInv {n : BitVec 12} {p : BitVec 8} {s t : State} (hs : s.RingInv)
    (h : execCfg n p s = .next t) : t.RingInv := by
  rcases execCfg_cases h with ⟨_, rfl⟩ | ⟨_, _, _, rfl⟩ | ⟨ph, cs, ring, rfl⟩
  · exact hs.takeFault _ _
  · exact hs.takeFault _ _
  · exact State.configure_ringInv ring ph cs

theorem execStart_ringInv {s t : State} (hs : s.RingInv) (h : execStart s = .next t) : t.RingInv := by
  rcases execStart_cases h with ⟨_, rfl⟩ | ⟨cd, _, rfl⟩ | ⟨_, _, rfl⟩
  · exact hs.takeFault _ _
  · exact hs.enterPhase (.inl cd)
  · exact hs

theorem execStop_ringInv {s t : State} (hs : s.RingInv) (h : execStop s = .next t) : t.RingInv := by
  cases h
  exact hs.enterPhase (.inr rfl)

theorem execAcquire_ringInv {s t : State} (hs : s.RingInv) (h : execAcquire s = .next t) : t.RingInv := by
  rcases execAcquire_cases h with ⟨_, rfl⟩ | ⟨_, _, rfl⟩ | ⟨cd, _, slot, ⟨_, rfl⟩ | ⟨_, rfl⟩⟩
  · exact hs.takeFault _ _
  · exact hs.takeFault _ _
  · exact hs.acquireReturn cd slot
  · exact (hs.setConsState cd (cs := .waiting) nofun).congr rfl

theorem execRelease_ringInv {s t : State} (hm : s.MemoryForm) (hs : s.RingInv) (h : execRelease s = .next t) :
    t.RingInv := by
  rcases execRelease_cases h with ⟨_, rfl⟩ | ⟨_, _, rfl⟩ | ⟨cd, _, slot, rfl⟩
  · exact hs.takeFault _ _
  · exact hs.takeFault _ _
  · have idle := hs.setConsState cd (cs := .idle) nofun
    have lt := (s.slotExists_iff _).1 slot
    rcases s.releaseVariant_cases with ⟨e, _⟩ | ⟨e, _⟩ <;> rw [e]
    · have cleared := idle.setValid hm.valid_wf cd lt (.inl rfl)
      exact (cleared.setRIdx (State.nextSlot_lt s.rIdx (Nat.zero_lt_of_lt lt)) nofun).congr rfl
    · exact idle.congr rfl

theorem computeCrc_ringInv {inv : Bool} {addr : Half} {len : BitVec 11} {i : Instr} {s t : State} (hs : s.RingInv)
    (h : computeCrc inv addr len i s = .next t) : t.RingInv := by
  rcases computeCrc_cases h with ⟨_, rfl, _⟩ | ⟨_, _, _, bytes, _, rfl⟩
  · exact hs.takeFault _ _
  · rcases s.computeOver_cases (rangeAddrs inv addr len) bytes with ⟨_, e⟩ | ⟨_, e⟩ <;> rw [e] <;>
      exact hs.congr rfl

theorem execDecode_ringInv {s t : State} (hs : s.RingInv) (h : execDecode s = .next t) : t.RingInv := by
  rcases execDecode_cases h with ⟨_, rfl, _⟩ | ⟨_, _, _, _, ⟨_, rfl⟩ | ⟨_, bytes, _, rfl⟩⟩
  · exact hs.takeFault _ _
  · exact hs.congr rfl
  · rcases s.decodeBytes_cases bytes with ⟨_, e⟩ | ⟨_, e⟩ <;> rw [e] <;> exact hs.congr rfl

theorem exec_ringInv {i : Instr} {s t : State} (hm : s.MemoryForm) (hs : s.RingInv) (h : exec i s = .next t) :
    t.RingInv := by
  cases i with
  | nop => cases h; exact hs
  | cfg n p => exact execCfg_ringInv hs h
  | start => exact execStart_ringInv hs h
  | stop => exact execStop_ringInv hs h
  | acquire => exact execAcquire_ringInv hs h
  | release => exact execRelease_ringInv hm hs h
  | crcBuild poly => cases h; exact hs.congr rfl
  | crcSeed seed => cases h; exact hs.congr rfl
  | crcCompute addr len => exact computeCrc_ringInv hs h
  | crcComputeInv addr len => exact computeCrc_ringInv hs h
  | decode => exact execDecode_ringInv hs h
  | vreset => cases h; exact hs.congr rfl

/-! ## The agents -/

theorem commandStep_ringInv {w : Word} {s t : State} (hm : s.MemoryForm) (hs : s.RingInv)
    (h : commandStep w s = .next t) : t.RingInv := by
  rcases commandStep_cases h with ⟨_, rfl⟩ | ⟨_, i, _, h⟩ | ⟨_, _, _, rfl⟩
  · exact hs
  · exact exec_ringInv hm hs h
  · exact hs.takeFault _ _

theorem State.waiting_of_wakeEnabled {s : State} (h : s.wakeEnabled = true) : s.consState = .waiting := by
  simp only [State.wakeEnabled, Bool.and_eq_true, beq_iff_eq] at h
  obtain ⟨⟨waiting, _⟩, _⟩ := h
  exact waiting

theorem wakeStep_ringInv {s t : State} (hs : s.RingInv) (h : wakeStep s = .next t) : t.RingInv := by
  rcases wakeStep_cases h with ⟨_, rfl⟩ | ⟨en, slot, rfl⟩
  · exact hs
  · have cd := hs.configured_of_busy (by simp [State.waiting_of_wakeEnabled en])
    exact (hs.acquireReturn cd slot).congr rfl

theorem produceStep_ringInv {s t : State} (hm : s.MemoryForm) (hs : s.RingInv) (h : produceStep s = .next t) :
    t.RingInv := by
  rcases produceStep_cases h with rfl | ⟨_, ph, _, rfl⟩ | ⟨_, ph, slot, rfl⟩ | ⟨_, ph, _, slot, rfl⟩ | ⟨_, ph, _, rfl⟩
  case inl => exact hs
  all_goals have cd := hs.configured_of_running (by simp [ph])
  · -- CHECK
    rw [State.reportOverrun_eq]
    exact (hs.enterPhase (ph := .read) (.inl cd)).congr rfl
  · -- COMMIT
    have lt := (s.slotExists_iff _).1 slot
    have marked := (hs.setPhase cd (ph := .check) nofun).setValid hm.valid_wf cd lt (.inr rfl)
    exact (marked.setWIdx (State.nextSlot_lt s.wIdx (Nat.zero_lt_of_lt lt))).congr rfl
  · -- EMPTY, variant A
    have lt := (s.slotExists_iff _).1 slot
    exact ((hs.setPhase cd (ph := .check) nofun).setValid hm.valid_wf cd lt (.inl rfl)).congr rfl
  · -- EMPTY, variant B
    exact hs.setPhase cd nofun

theorem serialStep_ringInv {e : SerialInput} {s t : State} (hs : s.RingInv) (h : serialStep e s = .next t) :
    t.RingInv := by
  rcases serialStep_cases h with rfl | ⟨_, ph, _, rfl⟩ | ⟨_, ph, lt, ⟨b, _, slot, rfl⟩ | ⟨_, rfl⟩ | ⟨_, rfl⟩⟩
  · exact hs
  · have cd := hs.configured_of_running (by rcases ph with ph | ph <;> simp [ph])
    exact hs.setPhase cd nofun
  · exact hs.storeByte ph lt slot b
  all_goals exact hs.enterPhase (.inl (hs.configured_of_running (by simp [ph])))

theorem readStep_ringInv {a : ReadAccess} {s t : State} (hs : s.RingInv) (h : readStep a s = .next t) :
    t.RingInv := by
  obtain ⟨v, d, e⟩ := readStep_eq a s
  cases e.symm.trans h
  exact hs.congr rfl

/-! ## The step -/

theorem takeTurn_ringInv {u : Turn} {s t : State} (hm : s.MemoryForm) (hs : s.RingInv)
    (h : takeTurn u s = .next t) : t.RingInv := by
  cases u with
  | command w => exact commandStep_ringInv hm hs h
  | wake => exact wakeStep_ringInv hs h
  | produce => exact produceStep_ringInv hm hs h
  | serial e => exact serialStep_ringInv hs h
  | read a => exact readStep_ringInv hs h
  | reset => cases h; exact s.resetLine_ringInv

/-- Settles O56: the offered turn is taken off the list, which the ring does not see, and each agent's turn keeps the ring. -/
theorem stepKeepsTheRing : Obligations.StepKeepsTheRing := by
  intro s t hm hs h
  rcases step_cases h with ⟨_, rfl⟩ | ⟨u, rest, _, turn⟩
  · exact hs
  · exact takeTurn_ringInv (s := { s with pending := rest }) hm (hs.congr rfl) turn

end Sys2Proof.Machine

/-! Proofs of the family 10_state: what each command writes (O54), and from that the canonical form of the byte spaces (O55)
and the reserved bits, the fault record and the CRC table (O57); that a well-shaped ring never stops the model (O58); the
STATUS word (O52) and the register map (O53). -/

namespace Sys2Proof.Machine

/-! ## What each command writes -/

/-- What command `i`, leading from `s` to `t`, leaves unchanged, by group of registers; and the fault record, which changes
only by fault entry. -/
structure CommandFrame (i : Instr) (s t : State) : Prop where
  ring : (∀ n p, i ≠ .cfg n p) → t.arena = s.arena ∧ t.n = s.n ∧ t.p = s.p ∧ t.wIdx = s.wIdx ∧
    t.cfgDone = s.cfgDone ∧ t.ovr = s.ovr ∧ t.ovrCount = s.ovrCount
  flags : (∀ n p, i ≠ .cfg n p) → i ≠ .release → t.valid = s.valid ∧ t.rIdx = s.rIdx
  phase : i ≠ .start → i ≠ .stop → t.prodPhase = s.prodPhase
  count : (∀ n p, i ≠ .cfg n p) → i ≠ .start → i ≠ .stop → t.rdCount = s.rdCount
  table : (∀ poly, i ≠ .crcBuild poly) → t.crcTable = s.crcTable ∧ t.crcPoly = s.crcPoly ∧
    t.crcTableValid = s.crcTableValid
  seed : (∀ seed, i ≠ .crcSeed seed) → t.crcSeed = s.crcSeed
  result : (∀ a l, i ≠ .crcCompute a l) → (∀ a l, i ≠ .crcComputeInv a l) → t.crcResult = s.crcResult
  outputs : i ≠ .decode → t.outputs = s.outputs
  validator : i ≠ .decode → i ≠ .vreset → t.validator = s.validator
  outside : t.config = s.config ∧ t.pending = s.pending ∧ t.readData = s.readData
  fault : (t.faulted = s.faulted ∧ t.faultCode = s.faultCode ∧ t.faultCmd = s.faultCmd) ∨
    (t.faulted = true ∧ (∃ code : FaultCode, t.faultCode = code.number) ∧ t.faultCmd = encode i)

/-- A command that writes nothing. The frame of one that writes is this one, with the groups it does write exempted. -/
theorem CommandFrame.refl (i : Instr) (s : State) : CommandFrame i s s where
  ring _ := ⟨rfl, rfl, rfl, rfl, rfl, rfl, rfl⟩
  flags _ _ := ⟨rfl, rfl⟩
  phase _ _ := rfl
  count _ _ _ := rfl
  table _ := ⟨rfl, rfl, rfl⟩
  seed _ := rfl
  result _ _ := rfl
  outputs _ := rfl
  validator _ _ := rfl
  outside := ⟨rfl, rfl, rfl⟩
  fault := .inl ⟨rfl, rfl, rfl⟩

/-- A command that faults writes the fault record alone (R255). -/
theorem CommandFrame.takeFault (i : Instr) (s : State) (code : FaultCode) :
    CommandFrame i s (s.takeFault code (encode i)) :=
  { CommandFrame.refl i s with fault := .inr ⟨rfl, ⟨code, rfl⟩, rfl⟩ }

theorem execCfg_frame {n : BitVec 12} {p : BitVec 8} {s t : State} (h : execCfg n p s = .next t) :
    CommandFrame (.cfg n p) s t := by
  rcases execCfg_cases h with ⟨_, rfl⟩ | ⟨_, _, _, rfl⟩ | ⟨_, _, _, rfl⟩
  · exact .takeFault _ _ _
  · exact .takeFault _ _ _
  · exact { CommandFrame.refl (.cfg n p) s with
      ring := fun c => absurd rfl (c n p)
      flags := fun c => absurd rfl (c n p)
      count := fun c => absurd rfl (c n p) }

theorem execStart_frame {s t : State} (h : execStart s = .next t) : CommandFrame .start s t := by
  rcases execStart_cases h with ⟨_, rfl⟩ | ⟨_, _, rfl⟩ | ⟨_, _, rfl⟩
  · exact .takeFault _ _ _
  · exact { CommandFrame.refl .start s with
      phase := fun c => absurd rfl c
      count := fun _ c => absurd rfl c }
  · exact .refl _ _

theorem execStop_frame {s t : State} (h : execStop s = .next t) : CommandFrame .stop s t := by
  cases h
  exact { CommandFrame.refl .stop s with
    phase := fun _ c => absurd rfl c
    count := fun _ _ c => absurd rfl c }

theorem execAcquire_frame {s t : State} (h : execAcquire s = .next t) : CommandFrame .acquire s t := by
  rcases execAcquire_cases h with ⟨_, rfl⟩ | ⟨_, _, rfl⟩ | ⟨_, _, _, ⟨_, rfl⟩ | ⟨_, rfl⟩⟩
  · exact .takeFault _ _ _
  · exact .takeFault _ _ _
  · exact { CommandFrame.refl .acquire s with }
  · exact { CommandFrame.refl .acquire s with }

theorem execRelease_frame {s t : State} (h : execRelease s = .next t) : CommandFrame .release s t := by
  rcases execRelease_cases h with ⟨_, rfl⟩ | ⟨_, _, rfl⟩ | ⟨_, _, _, rfl⟩
  · exact .takeFault _ _ _
  · exact .takeFault _ _ _
  · rcases s.releaseVariant_cases with ⟨e, _⟩ | ⟨e, _⟩ <;> rw [e]
    · exact { CommandFrame.refl .release s with flags := fun _ c => absurd rfl c }
    · exact { CommandFrame.refl .release s with }

/-- A compute, as either of the two commands that run it. -/
theorem computeCrc_frame {inv : Bool} {addr : Half} {len : BitVec 11} {i : Instr} {s t : State}
    (hi : i = .crcCompute addr len ∨ i = .crcComputeInv addr len) (h : computeCrc inv addr len i s = .next t) :
    CommandFrame i s t := by
  have exempt {q : Prop} : (∀ a l, i ≠ .crcCompute a l) → (∀ a l, i ≠ .crcComputeInv a l) → q :=
    fun c d => (hi.elim (c addr len) (d addr len)).elim
  rcases computeCrc_cases h with ⟨_, rfl, _⟩ | ⟨_, _, _, bytes, _, rfl⟩
  · exact .takeFault _ _ _
  · rcases s.computeOver_cases (rangeAddrs inv addr len) bytes with ⟨_, e⟩ | ⟨_, e⟩ <;> rw [e] <;>
      exact { CommandFrame.refl i s with result := exempt }

theorem execDecode_frame {s t : State} (h : execDecode s = .next t) : CommandFrame .decode s t := by
  rcases execDecode_cases h with ⟨_, rfl, _⟩ | ⟨_, _, _, _, ⟨_, rfl⟩ | ⟨_, bytes, _, rfl⟩⟩
  · exact .takeFault _ _ _
  · exact { CommandFrame.refl .decode s with outputs := fun c => absurd rfl c }
  · rcases s.decodeBytes_cases bytes with ⟨_, e⟩ | ⟨_, e⟩ <;> rw [e] <;>
      exact { CommandFrame.refl .decode s with
        outputs := fun c => absurd rfl c
        validator := fun c => absurd rfl c }

theorem exec_frame {i : Instr} {s t : State} (h : exec i s = .next t) : CommandFrame i s t := by
  cases i with
  | nop => cases h; exact .refl _ _
  | cfg n p => exact execCfg_frame h
  | start => exact execStart_frame h
  | stop => exact execStop_frame h
  | acquire => exact execAcquire_frame h
  | release => exact execRelease_frame h
  | crcBuild poly => cases h; exact { CommandFrame.refl (.crcBuild poly) s with table := fun c => absurd rfl (c poly) }
  | crcSeed seed => cases h; exact { CommandFrame.refl (.crcSeed seed) s with seed := fun c => absurd rfl (c seed) }
  | crcCompute addr len => exact computeCrc_frame (.inl rfl) h
  | crcComputeInv addr len => exact computeCrc_frame (.inr rfl) h
  | decode => exact execDecode_frame h
  | vreset => cases h; exact { CommandFrame.refl .vreset s with validator := fun _ c => absurd rfl c }

/-- Settles O54: every clause is a group of the command's frame. -/
theorem commandsWriteOnlyTheirOwn : Obligations.CommandsWriteOnlyTheirOwn := by
  intro i s t h
  obtain ⟨ring, flags, phase, count, table, seed, result, outputs, validator, outside, _⟩ := exec_frame h
  exact ⟨ring, flags, phase, count, table, seed, result, outputs, validator, outside⟩

/-! ## The canonical form of the byte spaces -/

theorem State.MemoryForm.congr {s t : State} (hm : s.MemoryForm) (arena : t.arena = s.arena)
    (valid : t.valid = s.valid) : t.MemoryForm := by
  rwa [State.MemoryForm, arena, valid]

theorem State.MemoryForm.setValid {s : State} (hm : s.MemoryForm) (i : Nat) (v : Byte) :
    (s.setValid i v).MemoryForm := by
  obtain ⟨arena, flags⟩ := hm
  exact ⟨arena, State.setValid_flagsWf i v flags⟩

theorem State.MemoryForm.storeByte {s : State} (hm : s.MemoryForm) (b : Byte) : (s.storeByte b).MemoryForm := by
  obtain ⟨arena, flags⟩ := hm
  exact ⟨State.arenaWrite_wf _ b arena, flags⟩

/-- Of the commands only CFG, which empties both spaces, and RELEASE, which clears a flag, write a byte space. -/
theorem exec_memoryForm {i : Instr} {s t : State} (hm : s.MemoryForm) (h : exec i s = .next t) : t.MemoryForm := by
  cases i with
  | cfg n p =>
    rcases execCfg_cases h with ⟨_, rfl⟩ | ⟨_, _, _, rfl⟩ | ⟨_, _, _, rfl⟩
    · exact hm
    · exact hm
    · exact ⟨rfl, rfl⟩
  | release =>
    rcases execRelease_cases h with ⟨_, rfl⟩ | ⟨_, _, rfl⟩ | ⟨_, _, _, rfl⟩
    · exact hm
    · exact hm
    · rcases s.releaseVariant_cases with ⟨e, _⟩ | ⟨e, _⟩ <;> rw [e]
      · exact hm.setValid s.rIdx.toNat 0
      · exact hm
  | _ =>
    obtain ⟨arena, _⟩ := (exec_frame h).ring nofun
    obtain ⟨valid, _⟩ := (exec_frame h).flags nofun nofun
    exact hm.congr arena valid

theorem produceStep_memoryForm {s t : State} (hm : s.MemoryForm) (h : produceStep s = .next t) : t.MemoryForm := by
  rcases produceStep_cases h with rfl | ⟨_, _, _, rfl⟩ | ⟨_, _, _, rfl⟩ | ⟨_, _, _, _, rfl⟩ | ⟨_, _, _, rfl⟩
  · exact hm
  · rw [State.reportOverrun_eq]
    exact hm
  · exact hm.setValid s.wIdx.toNat 1
  · exact hm.setValid s.wIdx.toNat 0
  · exact hm

theorem takeTurn_memoryForm {u : Turn} {s t : State} (hm : s.MemoryForm) (h : takeTurn u s = .next t) :
    t.MemoryForm := by
  cases u with
  | command w =>
    rcases commandStep_cases h with ⟨_, rfl⟩ | ⟨_, i, _, h⟩ | ⟨_, _, _, rfl⟩
    · exact hm
    · exact exec_memoryForm hm h
    · exact hm
  | wake => rcases wakeStep_cases h with ⟨_, rfl⟩ | ⟨_, _, rfl⟩ <;> exact hm
  | produce => exact produceStep_memoryForm hm h
  | serial e =>
    rcases serialStep_cases h with rfl | ⟨_, _, _, rfl⟩ | ⟨_, _, _, ⟨b, _, _, rfl⟩ | ⟨_, rfl⟩ | ⟨_, rfl⟩⟩
    case inr.inr.inl => exact hm.storeByte b
    all_goals exact hm
  | read a =>
    obtain ⟨v, d, e⟩ := readStep_eq a s
    cases e.symm.trans h
    exact hm
  | reset => cases h; exact ⟨rfl, rfl⟩

/-- Settles O55: of the turns only commands, the producer's marks and the byte step write a byte space, and each writes it
through an operation that keeps the form. -/
theorem stepKeepsTheMemoryForm : Obligations.StepKeepsTheMemoryForm := by
  intro s t hm h
  rcases step_cases h with ⟨_, rfl⟩ | ⟨u, rest, _, turn⟩
  · exact hm
  · exact takeTurn_memoryForm (s := { s with pending := rest }) hm turn

/-! ## Reserved bits, the fault record and the CRC table -/

/-- The state with only the registers that nothing but a command or the reset line writes: the CRC engine's, the validator's,
the outputs, the fault record; all others as after reset. -/
def State.commandRegisters (s : State) : State :=
  { State.reset with
    crcPoly := s.crcPoly, crcSeed := s.crcSeed, crcResult := s.crcResult
    crcTable := s.crcTable, crcTableValid := s.crcTableValid
    validator := s.validator, outputs := s.outputs
    faulted := s.faulted, faultCode := s.faultCode, faultCmd := s.faultCmd }

/-- The wake step, the producer and the reader leave those registers alone. -/
theorem takeTurn_commandRegisters {u : Turn} {s t : State} (h : takeTurn u s = .next t)
    (command : ∀ w, u ≠ .command w) (reset : u ≠ .reset) : t.commandRegisters = s.commandRegisters := by
  cases u with
  | command w => exact absurd rfl (command w)
  | wake => rcases wakeStep_cases h with ⟨_, rfl⟩ | ⟨_, _, rfl⟩ <;> rfl
  | produce =>
    rcases produceStep_cases h with rfl | ⟨_, _, _, rfl⟩ | ⟨_, _, _, rfl⟩ | ⟨_, _, _, _, rfl⟩ | ⟨_, _, _, rfl⟩
    case inr.inl => rw [State.reportOverrun_eq]; rfl
    all_goals rfl
  | serial e =>
    rcases serialStep_cases h with rfl | ⟨_, _, _, rfl⟩ | ⟨_, _, _, ⟨b, _, _, rfl⟩ | ⟨_, rfl⟩ | ⟨_, rfl⟩⟩ <;> rfl
  | read a =>
    obtain ⟨v, d, e⟩ := readStep_eq a s
    cases e.symm.trans h
    rfl
  | reset => exact absurd rfl reset

theorem State.reservedZero_commandRegisters (s : State) : s.commandRegisters.ReservedZero ↔ s.ReservedZero :=
  ⟨fun h => ⟨h.lastTs, h.outTs, h.outErr, h.record, h.code⟩, fun h => ⟨h.lastTs, h.outTs, h.outErr, h.record, h.code⟩⟩

theorem State.ReservedZero.congr {s t : State} (hs : s.ReservedZero) (e : t.commandRegisters = s.commandRegisters) :
    t.ReservedZero := by
  rw [← State.reservedZero_commandRegisters] at hs ⊢
  rwa [e]

theorem State.tableInv_commandRegisters (s : State) : s.commandRegisters.TableInv ↔ s.TableInv := .rfl

theorem State.TableInv.congr {s t : State} (hs : s.TableInv) (e : t.commandRegisters = s.commandRegisters) :
    t.TableInv := by
  rw [← State.tableInv_commandRegisters] at hs ⊢
  rwa [e]

theorem State.resetLine_reservedZero (s : State) : s.resetLine.ReservedZero where
  lastTs := Nat.two_pow_pos 40
  outTs := Nat.two_pow_pos 40
  outErr := Nat.two_pow_pos 5
  record _ := ⟨rfl, rfl⟩
  code := Nat.zero_le 10

/-- The fault codes are the numbers 1 to 10 (R251). -/
theorem FaultCode.number_le (c : FaultCode) : c.number.toNat ≤ 10 := by
  cases c <;> decide

theorem State.ReservedZero.takeFault {s : State} (hs : s.ReservedZero) (code : FaultCode) (w : Word) :
    (s.takeFault code w).ReservedZero :=
  { hs with
    record := nofun
    code := code.number_le }

/-- What the checks keep: an error code of the five bits of R242, and a 40-bit `LAST_TS`. -/
structure Verdict.Reserved (r : Verdict) : Prop where
  err : r.err.toNat < 2 ^ 5
  lastTs : r.validator.lastTs.toNat < 2 ^ 40

theorem toNat_or_lt_two_pow {w n : Nat} {x y : BitVec w} (hx : x.toNat < 2 ^ n) (hy : y.toNat < 2 ^ n) :
    (x ||| y).toNat < 2 ^ n := by
  rw [BitVec.toNat_or]
  exact Nat.or_lt_two_pow hx hy

theorem checkCrc_reserved (computed rx : Half) {v : Validator} (h : v.lastTs.toNat < 2 ^ 40) :
    (checkCrc computed rx v).Reserved := by
  unfold checkCrc
  split
  · exact ⟨Nat.two_pow_pos 5, h⟩
  · exact ⟨(by decide : errCrc.toNat < 2 ^ 5), h⟩

theorem Verdict.Reserved.checkSeq {r : Verdict} (h : r.Reserved) (seq : BitVec 2) : (checkSeq seq r).Reserved := by
  unfold Machine.checkSeq
  split
  · exact h
  · refine ⟨?_, h.lastTs⟩
    dsimp only
    split
    · exact toNat_or_lt_two_pow h.err (by decide)
    · exact h.err

theorem Verdict.Reserved.checkSync {r : Verdict} (h : r.Reserved) (syncB sync : Byte) :
    (checkSync syncB sync r).Reserved := by
  unfold Machine.checkSync
  split_ifs
  · exact h
  · exact ⟨toNat_or_lt_two_pow h.err (by decide), h.lastTs⟩
  · exact ⟨toNat_or_lt_two_pow h.err (by decide), h.lastTs⟩
  · exact ⟨h.err, h.lastTs⟩

theorem Verdict.Reserved.checkTime {r : Verdict} (h : r.Reserved) {ts : BitVec 64} (lt : ts.toNat < 2 ^ 40) :
    (checkTime ts r).Reserved := by
  unfold Machine.checkTime
  split_ifs
  · exact h
  · exact ⟨toNat_or_lt_two_pow h.err (by decide), h.lastTs⟩
  · exact ⟨h.err, lt⟩

/-- A packet's timestamp has 40 bits (R202). -/
theorem packetTs_lt (pkt : Packet) : (packetTs pkt).toNat < 2 ^ 40 := by
  rw [packetTs, BitVec.zeroExtend, BitVec.toNat_setWidth_of_le (by decide)]
  exact BitVec.isLt _

theorem checkPacket_reserved (syncB : Byte) (pkt : Packet) {v : Validator} (h : v.lastTs.toNat < 2 ^ 40) :
    (checkPacket syncB pkt v).Reserved :=
  (((checkCrc_reserved _ _ h).checkSeq _).checkSync _ _).checkTime (packetTs_lt pkt)

theorem State.ReservedZero.decodePacket {s : State} (hs : s.ReservedZero) (pkt : Packet) :
    (s.decodePacket pkt).ReservedZero :=
  { hs with
    lastTs := (checkPacket_reserved s.config.syncB pkt hs.lastTs).lastTs
    outTs := packetTs_lt pkt
    outErr := (checkPacket_reserved s.config.syncB pkt hs.lastTs).err }

theorem execDecode_reservedZero {s t : State} (hs : s.ReservedZero) (h : execDecode s = .next t) : t.ReservedZero := by
  rcases execDecode_cases h with ⟨_, rfl, _⟩ | ⟨_, _, _, _, ⟨_, rfl⟩ | ⟨_, bytes, _, rfl⟩⟩
  · exact hs.takeFault _ _
  · exact { hs with
      outTs := Nat.two_pow_pos 40
      outErr := Nat.two_pow_pos 5 }
  · rcases s.decodeBytes_cases bytes with ⟨_, e⟩ | ⟨_, e⟩ <;> rw [e]
    · exact (hs.congr (t := { s with draws := s.draws + 15 }) rfl).decodePacket _
    · exact hs.decodePacket _

/-- A command's fault record is clear where the state was clear and no fault is taken; its code is one of R251's. -/
theorem CommandFrame.record {i : Instr} {s t : State} (frame : CommandFrame i s t) (hs : s.ReservedZero) :
    (t.faulted = false → t.faultCode = 0 ∧ t.faultCmd = 0) ∧ t.faultCode.toNat ≤ 10 := by
  rcases frame.fault with ⟨faulted, code, cmd⟩ | ⟨faulted, ⟨c, code⟩, _⟩
  · rw [faulted, code, cmd]
    exact ⟨hs.record, hs.code⟩
  · rw [faulted, code]
    exact ⟨nofun, c.number_le⟩

/-- The outputs are DECODE's, and besides DECODE only VRESET writes the validator, clearing it. -/
theorem exec_reservedZero {i : Instr} {s t : State} (hs : s.ReservedZero) (h : exec i s = .next t) :
    t.ReservedZero := by
  cases i with
  | decode => exact execDecode_reservedZero hs h
  | vreset => cases h; exact { hs with lastTs := Nat.two_pow_pos 40 }
  | _ =>
    have frame := exec_frame h
    have outputs := frame.outputs nofun
    have validator := frame.validator nofun nofun
    obtain ⟨record, code⟩ := frame.record hs
    exact ⟨validator ▸ hs.lastTs, outputs ▸ hs.outTs, outputs ▸ hs.outErr, record, code⟩

/-- CRC.BUILD writes the table with its polynomial (R175), and no other command writes either. -/
theorem exec_tableInv {i : Instr} {s t : State} (hs : s.TableInv) (h : exec i s = .next t) : t.TableInv := by
  cases i with
  | crcBuild poly => cases h; exact fun _ => rfl
  | _ =>
    obtain ⟨table, poly, built⟩ := (exec_frame h).table nofun
    rwa [State.TableInv, table, poly, built]

theorem commandStep_reservedZero {w : Word} {s t : State} (hs : s.ReservedZero) (h : commandStep w s = .next t) :
    t.ReservedZero := by
  rcases commandStep_cases h with ⟨_, rfl⟩ | ⟨_, i, _, h⟩ | ⟨_, _, _, rfl⟩
  · exact hs
  · exact exec_reservedZero hs h
  · exact hs.takeFault _ _

theorem commandStep_tableInv {w : Word} {s t : State} (hs : s.TableInv) (h : commandStep w s = .next t) :
    t.TableInv := by
  rcases commandStep_cases h with ⟨_, rfl⟩ | ⟨_, i, _, h⟩ | ⟨_, _, _, rfl⟩
  · exact hs
  · exact exec_tableInv hs h
  · exact hs

theorem takeTurn_reservedZero {u : Turn} {s t : State} (hs : s.ReservedZero) (h : takeTurn u s = .next t) :
    t.ReservedZero := by
  cases u with
  | command w => exact commandStep_reservedZero hs h
  | reset => cases h; exact s.resetLine_reservedZero
  | _ => exact hs.congr (takeTurn_commandRegisters h nofun nofun)

theorem takeTurn_tableInv {u : Turn} {s t : State} (hs : s.TableInv) (h : takeTurn u s = .next t) : t.TableInv := by
  cases u with
  | command w => exact commandStep_tableInv hs h
  | reset => cases h; exact nofun
  | _ => exact hs.congr (takeTurn_commandRegisters h nofun nofun)

/-- Settles O57: of the turns only commands and the reset line write the registers these invariants read. -/
theorem stepKeepsReservedBitsAndTable : Obligations.StepKeepsReservedBitsAndTable := by
  intro s t h
  rcases step_cases h with ⟨_, rfl⟩ | ⟨u, rest, _, turn⟩
  · exact ⟨id, id⟩
  · exact ⟨fun hs => takeTurn_reservedZero (s := { s with pending := rest }) (hs.congr rfl) turn,
      fun hs => takeTurn_tableInv (s := { s with pending := rest }) hs turn⟩

/-! ## A well-shaped ring never stops the model -/

theorem State.RingInv.rIdx_exists {s : State} (hs : s.RingInv) (cd : s.cfgDone = true) : s.slotExists s.rIdx = true :=
  (s.slotExists_iff _).2 (hs.indices cd).2

theorem State.RingInv.wIdx_exists {s : State} (hs : s.RingInv) (ph : s.prodPhase ≠ .stopped) :
    s.slotExists s.wIdx = true :=
  (s.slotExists_iff _).2 (hs.indices (hs.configured_of_running ph)).1

/-- A held slot's bytes lie in use (R27, R62). -/
theorem State.RingInv.held_inUse {s : State} (hs : s.RingInv) (cs : s.consState = .holding) :
    s.acqOffset.toNat + s.p.toNat ≤ s.arenaSize := by
  have cd := hs.configured_of_busy (by simp [cs])
  rw [hs.held cs]
  exact State.slotBase_add_size_le (hs.indices cd).2

/-- A conditional answers a next state if each branch does where it is taken. -/
theorem answers_ite {c : Prop} [Decidable c] {a b : Result} (pos : c → ∃ t, a = .next t)
    (neg : ¬c → ∃ t, b = .next t) : ∃ t, (if c then a else b) = .next t := by
  split
  · next h => exact pos h
  · next h => exact neg h

theorem execCfg_answers (n : BitVec 12) (p : BitVec 8) (s : State) : ∃ t, execCfg n p s = .next t :=
  answers_ite (fun _ => ⟨_, rfl⟩) fun _ =>
  answers_ite (fun _ => ⟨_, rfl⟩) fun _ => ⟨_, rfl⟩

theorem execStart_answers (s : State) : ∃ t, execStart s = .next t :=
  answers_ite (fun _ => ⟨_, rfl⟩) fun _ =>
  answers_ite (fun _ => ⟨_, rfl⟩) fun _ => ⟨_, rfl⟩

theorem execAcquire_answers {s : State} (hs : s.RingInv) : ∃ t, execAcquire s = .next t :=
  answers_ite (fun _ => ⟨_, rfl⟩) fun cfg =>
  answers_ite (fun _ => ⟨_, rfl⟩) fun _ =>
  answers_ite (fun stop => by simp [hs.rIdx_exists (by simpa using cfg)] at stop) fun _ =>
  answers_ite (fun _ => ⟨_, rfl⟩) fun _ => ⟨_, rfl⟩

theorem execRelease_answers {s : State} (hs : s.RingInv) : ∃ t, execRelease s = .next t :=
  answers_ite (fun _ => ⟨_, rfl⟩) fun cfg =>
  answers_ite (fun _ => ⟨_, rfl⟩) fun _ =>
  answers_ite (fun stop => by simp [hs.rIdx_exists (by simpa using cfg)] at stop) fun _ => ⟨_, rfl⟩

theorem computeCrc_answers (inv : Bool) (addr : Half) (len : BitVec 11) (i : Instr) (s : State) :
    ∃ t, computeCrc inv addr len i s = .next t := by
  refine answers_ite (fun _ => ⟨_, rfl⟩) fun _ =>
    answers_ite (fun _ => ⟨_, rfl⟩) fun _ =>
    answers_ite (fun _ => ⟨_, rfl⟩) fun _ => ?_
  rcases s.arenaBytes (rangeAddrs inv addr len) with _ | bytes
  · exact ⟨_, rfl⟩
  · exact ⟨_, rfl⟩

/-- DECODE checks the packet size before it reads, so its 15 bytes are the held slot's (R220). -/
theorem execDecode_answers {s : State} (hs : s.RingInv) : ∃ t, execDecode s = .next t := by
  refine answers_ite (fun _ => ⟨_, rfl⟩) fun _ =>
    answers_ite (fun _ => ⟨_, rfl⟩) fun cons =>
    answers_ite (fun _ => ⟨_, rfl⟩) fun size =>
    answers_ite (fun _ => ⟨_, rfl⟩) fun _ =>
    answers_ite (fun stop => ?_) fun _ => ?_
  · obtain ⟨holding, _⟩ : s.consState = .holding ∧ s.decoded = false := by simpa using cons
    have size15 : s.p = 15 := by simpa [Config.pDec] using size
    have inUse := hs.held_inUse holding
    rw [size15] at inUse
    exact absurd inUse (Nat.not_le_of_lt stop)
  · rcases s.arenaBytes (packetAddrs s.acqOffset.toNat) with _ | bytes
    · exact ⟨_, rfl⟩
    · exact ⟨_, rfl⟩

theorem exec_answers (i : Instr) {s : State} (hs : s.RingInv) : ∃ t, exec i s = .next t := by
  cases i with
  | cfg n p => exact execCfg_answers n p s
  | start => exact execStart_answers s
  | acquire => exact execAcquire_answers hs
  | release => exact execRelease_answers hs
  | crcCompute addr len => exact computeCrc_answers _ _ _ _ s
  | crcComputeInv addr len => exact computeCrc_answers _ _ _ _ s
  | decode => exact execDecode_answers hs
  | _ => exact ⟨_, rfl⟩

theorem commandStep_answers (w : Word) {s : State} (hs : s.RingInv) : ∃ t, commandStep w s = .next t := by
  refine answers_ite (fun _ => ?_) fun _ => ⟨_, rfl⟩
  rcases decodeWord w with _ | i
  · exact ⟨_, rfl⟩
  · exact exec_answers i hs

theorem wakeStep_answers {s : State} (hs : s.RingInv) : ∃ t, wakeStep s = .next t := by
  refine answers_ite (fun _ => ⟨_, rfl⟩) fun enabled =>
    answers_ite (fun stop => ?_) fun _ => ⟨_, rfl⟩
  have waiting : s.consState = .waiting := State.waiting_of_wakeEnabled (by simpa using enabled)
  have slot := hs.rIdx_exists (hs.configured_of_busy (by simp [waiting]))
  simp [slot] at stop

/-- A step of the producer on slot `W_IDX` finds the slot. -/
theorem producer_answers {s : State} (slot : s.slotExists s.wIdx = true) (t : State) :
    ∃ u, (if !s.slotExists s.wIdx then .fault .noSuchSlot else .next t : Result) = .next u :=
  answers_ite (fun stop => by simp [slot] at stop) fun _ => ⟨t, rfl⟩

theorem producerEmpty_answers {s : State} (slot : s.slotExists s.wIdx = true) : ∃ t, producerEmpty s = .next t := by
  unfold producerEmpty
  split
  · exact producer_answers slot _
  · exact ⟨_, rfl⟩

theorem produceStep_answers {s : State} (hs : s.RingInv) : ∃ t, produceStep s = .next t := by
  refine answers_ite (fun _ => ⟨_, rfl⟩) fun _ => ?_
  split
  case h_1 check => exact producer_answers (hs.wIdx_exists (by simp [check])) _
  case h_2 commit => exact producer_answers (hs.wIdx_exists (by simp [commit])) _
  case h_3 empty => exact producerEmpty_answers (hs.wIdx_exists (by simp [empty]))
  all_goals exact ⟨_, rfl⟩

theorem quietInput_answers (e : SerialInput) (s : State) : ∃ t, quietInput e s = .next t := by
  cases e <;> exact ⟨_, rfl⟩

theorem readInput_answers (e : SerialInput) {s : State} (slot : s.slotExists s.wIdx = true) :
    ∃ t, readInput e s = .next t := by
  refine answers_ite (fun _ => ?_) fun _ => ⟨_, rfl⟩
  cases e with
  | byte b => exact producer_answers slot _
  | _ => exact ⟨_, rfl⟩

theorem serialStep_answers (e : SerialInput) {s : State} (hs : s.RingInv) : ∃ t, serialStep e s = .next t := by
  refine answers_ite (fun _ => ⟨_, rfl⟩) fun _ => ?_
  split
  case h_1 => exact quietInput_answers e s
  case h_2 => exact quietInput_answers e s
  case h_3 read => exact readInput_answers e (hs.wIdx_exists (by simp [read]))
  all_goals exact ⟨_, rfl⟩

theorem takeTurn_answers (u : Turn) {s : State} (hs : s.RingInv) : ∃ t, takeTurn u s = .next t := by
  cases u with
  | command w => exact commandStep_answers w hs
  | wake => exact wakeStep_answers hs
  | produce => exact produceStep_answers hs
  | serial e => exact serialStep_answers e hs
  | read a =>
    obtain ⟨v, d, e⟩ := readStep_eq a s
    exact ⟨_, e⟩
  | reset => exact ⟨_, rfl⟩

/-- Settles O58: where a turn could name a missing slot or byte, the ring's shape says that it exists. -/
theorem wellShapedRingNeverStops : Obligations.WellShapedRingNeverStops := by
  intro s hs
  unfold step State.nextTurn
  rcases s.pending with _ | ⟨u, rest⟩
  · exact ⟨_, rfl⟩
  · exact takeTurn_answers u (hs.congr rfl)

/-! ## The STATUS word -/

/-- The bits of STATUS, the lowest first (R51). -/
def State.statusBits (s : State) : List Bool :=
  [s.cfgDone, s.faulted, s.event, s.acqValid, s.acqDirty, s.decoded, s.ovr, s.crcTableValid,
    s.prodPhase.code.getLsbD 0, s.prodPhase.code.getLsbD 1, s.prodPhase.code.getLsbD 2,
    s.consState.code.getLsbD 0, s.consState.code.getLsbD 1,
    s.validator.streaming, s.validator.seqHave, s.validator.syncHave, variantBit s.config.variant]

/-- Each bit of the word is the bit listed at its place, and 0 above the list. -/
theorem State.status_getLsbD (s : State) (k : Nat) : s.status.getLsbD k = (s.statusBits[k]?).getD false := by
  simp only [State.status, BitVec.getLsbD_append]
  by_cases listed : k < 17
  · interval_cases k <;> simp [State.statusBits]
  · iterate 14 rw [if_neg (by omega)]
    rw [List.getElem?_eq_none (Nat.le_of_not_lt listed)]
    exact BitVec.getLsbD_zero

theorem State.status_phase (s : State) : s.status.extractLsb' 8 3 = s.prodPhase.code := by
  refine BitVec.eq_of_getLsbD_eq fun i hi => ?_
  rw [BitVec.getLsbD_extractLsb', State.status_getLsbD]
  interval_cases i <;> rfl

theorem State.status_cons (s : State) : s.status.extractLsb' 11 2 = s.consState.code := by
  refine BitVec.eq_of_getLsbD_eq fun i hi => ?_
  rw [BitVec.getLsbD_extractLsb', State.status_getLsbD]
  interval_cases i <;> rfl

theorem State.status_reserved (s : State) : s.status.extractLsb' 17 15 = 0 := by
  refine BitVec.eq_of_getLsbD_eq fun i hi => ?_
  rw [BitVec.getLsbD_extractLsb', State.status_getLsbD, List.getElem?_eq_none (Nat.le_add_right 17 i)]
  simp

theorem variantBit_eq (v : Variant) : variantBit v = decide (v = .b) := by
  cases v <;> rfl

/-- Settles O52: each bit of the word is the one listed at its place, and each field its bits. -/
theorem statusWordLayout : Obligations.StatusWordLayout := by
  refine ⟨by decide, fun s => ⟨rfl, ?_⟩⟩
  have bit := s.status_getLsbD
  refine ⟨bit 0, bit 1, bit 2, bit 3, bit 4, bit 5, bit 6, bit 7, ?_, ?_, bit 13, bit 14, bit 15, ?_, s.status_reserved⟩
  · rw [s.status_phase]
    cases s.prodPhase <;> rfl
  · rw [s.status_cons]
    cases s.consState <;> rfl
  · rw [← variantBit_eq]
    exact bit 16

/-! ## The register map -/

/-- A register at its address, that is its word index (R52). -/
theorem State.readPort_register {a i : Nat} (s : State) (h : a / 4 = i) (lt : a < 4096) :
    s.readPort (.register (.ofNat 12 a)) = s.registerWord i := by
  rw [State.readPort, BitVec.toNat_ofNat, Nat.mod_eq_of_lt lt, h]

theorem State.registerWord_plain {i : Nat} (s : State) (h : i < 26) :
    s.registerWord i = .value (s.plainRegister i) := if_pos h

theorem State.registerWord_field (s : State) (j : Fin 38) : s.registerWord (26 + j.val) = .value s.outputs.field[j] := by
  rw [State.registerWord, if_neg (by omega), if_pos (by omega)]
  simp

theorem State.registerWord_raw {m : Nat} (s : State) (h : m < 4) :
    s.registerWord (64 + m) = .value (rawWord s.outputs.raw m) := by
  rw [State.registerWord, if_neg (by omega), if_neg (by omega), if_pos (by omega), Nat.add_sub_cancel_left]

theorem State.registerWord_low_reserved {i : Nat} (s : State) (raw : 68 ≤ i) (table : i < 256) :
    s.registerWord i = .value 0 := by
  rw [State.registerWord, if_neg (by omega), if_neg (by omega), if_neg (by omega), if_pos table]

theorem State.registerWord_high_reserved {i : Nat} (s : State) (h : 768 ≤ i) : s.registerWord i = .value 0 := by
  rw [State.registerWord, if_neg (by omega), if_neg (by omega), if_neg (by omega), if_neg (by omega),
    if_neg (by omega), if_neg (by omega)]

/-- A table entry by its place among the 256. -/
theorem tableAt_ofNat (t : Vector Half 256) (i : Fin 256) : tableAt t (.ofNat 8 i.val) = t[i] := by
  simp [tableAt]

theorem State.registerWord_crcTable (s : State) (i : Fin 256) :
    s.registerWord (256 + i.val) = if s.crcTableValid then .value ((s.crcTable[i]).zeroExtend 32) else .draw 16 := by
  rw [State.registerWord, if_neg (by omega), if_neg (by omega), if_neg (by omega), if_neg (by omega), if_pos (by omega),
    Nat.add_sub_cancel_left, tableAt_ofNat]

theorem State.registerWord_decTable (s : State) (i : Fin 256) :
    s.registerWord (512 + i.val) = .value ((decTable[i]).zeroExtend 32) := by
  rw [State.registerWord, if_neg (by omega), if_neg (by omega), if_neg (by omega), if_neg (by omega), if_neg (by omega),
    if_pos (by omega), Nat.add_sub_cancel_left, tableAt_ofNat]

/-- The parts of a word appended at its top lie above the lowest part. -/
theorem extractLsb'_append_byte {v : Nat} (x : BitVec v) (b : Byte) (start : Nat) :
    (x ++ b).extractLsb' (8 + start) 8 = x.extractLsb' start 8 := by
  rw [BitVec.extractLsb'_append_eq_of_le (Nat.le_add_right 8 start), Nat.add_sub_cancel_left]

theorem extractLsb'_append_byte_zero {v : Nat} (x : BitVec v) (b : Byte) : (x ++ b).extractLsb' 0 8 = b := by
  rw [BitVec.extractLsb'_append_eq_of_add_le (Nat.le_refl 8), BitVec.extractLsb'_eq_self]

/-- Byte lane n of a raw word (R52, R65 (c)). -/
theorem rawWord_lane (raw : Vector Byte 15) (m : Nat) (n : Fin 4) :
    (rawWord raw m).extractLsb' (8 * n.val) 8 = rawByte raw (4 * m + n.val) := by
  match n with
  | 0 => exact extractLsb'_append_byte_zero _ _
  | 1 => exact (extractLsb'_append_byte _ _ 0).trans (extractLsb'_append_byte_zero _ _)
  | 2 =>
    exact (extractLsb'_append_byte _ _ 8).trans
      ((extractLsb'_append_byte _ _ 0).trans (extractLsb'_append_byte_zero _ _))
  | 3 =>
    exact (extractLsb'_append_byte _ _ 16).trans
      ((extractLsb'_append_byte _ _ 8).trans ((extractLsb'_append_byte _ _ 0).trans BitVec.extractLsb'_eq_self))

theorem rawByte_fin (raw : Vector Byte 15) (k : Fin 15) : rawByte raw k.val = raw[k] := by
  simp [rawByte]

theorem zeroExtend_ofBool (b : Bool) : (BitVec.ofBool b).zeroExtend 32 = if b then 1 else 0 := by
  cases b <;> rfl

theorem reset_plainRegister {i : Nat} (h : 1 ≤ i) (lt : i < 26) : State.reset.plainRegister i = 0 := by
  interval_cases i <;> rfl

theorem reset_rawWord (m : Fin 4) : rawWord Outputs.zero.raw m = 0 := by
  fin_cases m <;> rfl

/-- After reset every register below the tables but the identity reads 0 (R52). -/
theorem reset_registerWord {i : Nat} (h : 1 ≤ i) (lt : i < 68) : State.reset.registerWord i = .value 0 := by
  by_cases plain : i < 26
  · rw [State.registerWord_plain _ plain, reset_plainRegister h plain]
  by_cases field : i < 64
  · obtain ⟨j, rfl⟩ := Nat.exists_eq_add_of_le (Nat.le_of_not_lt plain)
    rw [State.registerWord_field _ ⟨j, by omega⟩]
    simp [State.reset, State.resetOf, Outputs.zero]
  · obtain ⟨m, rfl⟩ := Nat.exists_eq_add_of_le (Nat.le_of_not_lt field)
    rw [State.registerWord_raw _ (by omega)]
    exact congrArg _ (reset_rawWord ⟨m, by omega⟩)

/-- Settles O53: each clause reads one range of word indices. -/
theorem registerMap : Obligations.RegisterMap := by
  refine ⟨fun a low high => reset_registerWord (i := a.toNat / 4) (by omega) (by omega), fun s => ?_⟩
  refine ⟨?reserved, ?unbuilt, rfl, ?plain, ?field, ?raw, ?lane, ?built, ?decoder⟩
  case reserved =>
    rintro a (⟨low, high⟩ | low)
    · exact s.registerWord_low_reserved (i := a.toNat / 4) (by omega) (by omega)
    · exact s.registerWord_high_reserved (i := a.toNat / 4) (by omega)
  case unbuilt =>
    intro unbuilt i
    rw [s.readPort_register (i := 256 + i.val) (by omega) (by omega), s.registerWord_crcTable, unbuilt]
    rfl
  case plain =>
    rw [← zeroExtend_ofBool]
    rfl
  case field =>
    intro j
    rw [s.readPort_register (i := 26 + j.val) (by omega) (by omega), s.registerWord_field]
  case raw =>
    intro k
    refine ⟨rawWord s.outputs.raw (k.val / 4), ?_, ?_⟩
    · rw [s.readPort_register (i := 64 + k.val / 4) (by omega) (by omega), s.registerWord_raw (by omega)]
    · rw [rawWord_lane _ _ ⟨k.val % 4, by omega⟩, Nat.div_add_mod, rawByte_fin]
  case lane => exact ⟨rawWord s.outputs.raw 3, rfl, rawWord_lane s.outputs.raw 3 3⟩
  case built =>
    intro built i
    rw [s.readPort_register (i := 256 + i.val) (by omega) (by omega), s.registerWord_crcTable, if_pos built]
  case decoder =>
    intro i
    rw [s.readPort_register (i := 512 + i.val) (by omega) (by omega), s.registerWord_decTable]
    rfl

end Sys2Proof.Machine

/-! Proofs of the family 20_memory: what the read port gives at each kind of address, and that an access is answered without
a side effect (O50, O51). -/

namespace Sys2Proof.Machine

/-! ## What the port gives, by kind of address -/

/-- Bits 1:0 of a register address do not reach its word index (R66). -/
theorem wordIndex_clear_low_bits (a : BitVec 12) : (a &&& 0xFFC).toNat / 4 = a.toNat / 4 := by
  have index_lt : a.toNat / 4 < 2 ^ 10 := by omega
  calc (a &&& 0xFFC).toNat / 4
    _ = (a.toNat &&& 0xFFC) >>> 2 := by rw [BitVec.toNat_and, Nat.shiftRight_eq_div_pow]; rfl
    _ = a.toNat / 4 &&& 2 ^ 10 - 1 := by rw [Nat.shiftRight_and_distrib, Nat.shiftRight_eq_div_pow]; rfl
    _ = a.toNat / 4 := by rw [Nat.and_two_pow_sub_one_eq_mod, Nat.mod_eq_of_lt index_lt]

theorem State.registerWord_unbuilt {i : Nat} (s : State) (unbuilt : s.crcTableValid = false) (low : 256 ≤ i)
    (high : i < 512) : s.registerWord i = .draw 16 := by
  obtain ⟨j, rfl⟩ := Nat.exists_eq_add_of_le low
  rw [s.registerWord_crcTable ⟨j, by omega⟩, unbuilt]
  rfl

/-- Between the raw words and the CRC table, and above the decoder's table, there is nothing (R52, R67). -/
theorem State.readPort_reserved (s : State) (a : BitVec 12)
    (h : (0x110 ≤ a.toNat ∧ a.toNat < 0x400) ∨ 0xC00 ≤ a.toNat) : s.readPort (.register a) = .value 0 := by
  rcases h with ⟨low, high⟩ | low
  · exact s.registerWord_low_reserved (i := a.toNat / 4) (by omega) (by omega)
  · exact s.registerWord_high_reserved (i := a.toNat / 4) (by omega)

theorem State.readPort_validity_used (s : State) {a : BitVec 12} (used : a.toNat < s.n.toNat) :
    s.readPort (.validity a) = .value ((s.validByte a.toNat).zeroExtend 32) := if_pos used

theorem State.readPort_validity_unused (s : State) {a : BitVec 12} (unused : s.n.toNat ≤ a.toNat) :
    s.readPort (.validity a) = .value 0 := if_neg (Nat.not_lt_of_le unused)

theorem State.readPort_arena_written (s : State) {a : Half} {b : Byte} (used : a.toNat < s.arenaSize)
    (byte : s.arenaRead a.toNat = some b) : s.readPort (.arena a) = .value (b.zeroExtend 32) := by
  simp only [State.readPort, if_pos used, byte]

theorem State.arenaRead_eq_none (s : State) (a : Nat) : s.arenaRead a = none ↔ s.written a = false :=
  (Option.isSome_eq_false_iff.trans Option.isNone_iff_eq_none).symm

theorem State.readPort_arena_unwritten (s : State) {a : Half} (used : a.toNat < s.arenaSize)
    (unwritten : s.written a.toNat = false) : s.readPort (.arena a) = .draw 8 := by
  simp only [State.readPort, if_pos used, (s.arenaRead_eq_none _).2 unwritten]

theorem State.readPort_arena_unused (s : State) {a : Half} (unused : s.arenaSize ≤ a.toNat) :
    s.readPort (.arena a) = .value 0 := if_neg (Nat.not_lt_of_le unused)

/-! ## The reader's turn -/

/-- The port reads no turn: taking one off the list does not change what it gives. -/
theorem State.readPort_pending (s : State) (a : ReadAccess) (rest : List Turn) :
    ({ s with pending := rest } : State).readPort a = s.readPort a := by
  cases a <;> rfl

/-- The step takes the first turn offered, on the state without it (R272). -/
theorem step_of_pending {s : State} {u : Turn} {rest : List Turn} (h : s.pending = u :: rest) :
    step s = takeTurn u { s with pending := rest } := by
  simp only [step, State.nextTurn, h]

/-- An access that gives a value hands it out. The fault record is not looked at (R66). -/
theorem step_read_value {s : State} {a : ReadAccess} {rest : List Turn} {v : Word} (h : s.pending = .read a :: rest)
    (value : s.readPort a = .value v) : step s = .next { s with pending := rest, readData := v } := by
  rw [step_of_pending h, takeTurn, readStep, s.readPort_pending, value]

/-- An access that gives a draw hands out a fresh one (R67; log entry 5). -/
theorem step_read_draw {s : State} {a : ReadAccess} {rest : List Turn} {width : Nat} (h : s.pending = .read a :: rest)
    (draw : s.readPort a = .draw width) :
    step s = .next { s with
      pending := rest, readData := (Config.draw width s.draws).zeroExtend 32, draws := s.draws + 1 } := by
  rw [step_of_pending h, takeTurn, readStep, s.readPort_pending, draw]

/-- Settles O50: a value or a draw, the turn answers, and it writes only what is no register. -/
theorem readPortHasNoSideEffect : Obligations.ReadPortHasNoSideEffect := by
  refine ⟨fun s a => ?_, fun s _ => s.readPort_validity_used, fun s _ _ => s.readPort_arena_written,
    fun s a rest offered => ?_⟩
  · rw [State.readPort, State.readPort, wordIndex_clear_low_bits]
  · cases given : s.readPort a with
    | value v =>
      refine ⟨_, step_read_value offered given, rfl, rfl, fun w same => ?_⟩
      cases same
      exact ⟨rfl, rfl⟩
    | draw width => exact ⟨_, step_read_draw offered given, rfl, rfl, nofun⟩

/-- Settles O51: each place where nothing is defined is one kind of address. -/
theorem readPortAtUndefinedPlaces : Obligations.ReadPortAtUndefinedPlaces := by
  refine ⟨fun s a width rest offered draw => ⟨_, step_read_draw offered draw, rfl, rfl⟩, fun s => ?_⟩
  exact ⟨fun _ => s.readPort_arena_unwritten, fun _ => s.readPort_arena_unused, fun _ => s.readPort_validity_unused,
    fun unbuilt a low high => s.registerWord_unbuilt (i := a.toNat / 4) unbuilt (by omega) (by omega),
    s.readPort_reserved⟩

end Sys2Proof.Machine

/-! Proofs of the family 30_encoding: the fields of a word as numbers, each format as a bijection of the word's fields, and
from these that the decoder inverts the encoder (O1, O2, O3, O6), when a word does not decode and what the port then does (O4,
O5, O8), and the assembler's words (O7). -/

namespace Sys2Proof

/-! ## The fields of a word as numbers -/

@[simp] theorem opcodeField_toNat (w : Word) : (opcodeField w).toNat = w.toNat / 2 ^ 28 := by
  rw [opcodeField, BitVec.extractLsb'_toNat, Nat.shiftRight_eq_div_pow]
  omega

@[simp] theorem imm16Field_toNat (w : Word) : (imm16Field w).toNat = w.toNat % 2 ^ 16 :=
  BitVec.extractLsb'_toNat ..

@[simp] theorem nslotField_toNat (w : Word) : (nslotField w).toNat = w.toNat / 2 ^ 16 % 2 ^ 12 := by
  rw [nslotField, BitVec.extractLsb'_toNat, Nat.shiftRight_eq_div_pow]

@[simp] theorem psizeField_toNat (w : Word) : (psizeField w).toNat = w.toNat % 2 ^ 8 :=
  BitVec.extractLsb'_toNat ..

@[simp] theorem lenField_toNat (w : Word) : (lenField w).toNat = w.toNat / 2 ^ 16 % 2 ^ 11 := by
  rw [lenField, BitVec.extractLsb'_toNat, Nat.shiftRight_eq_div_pow]

theorem invField_eq_iff {w : Word} {inv : Bool} : invField w = inv ↔ w.toNat / 2 ^ 27 % 2 = inv.toNat := by
  rw [invField, BitVec.getLsbD, Nat.testBit_eq_decide_div_mod_eq]
  cases inv <;> simp

/-- A "must be 0" field, as a number. -/
theorem extractLsb'_eq_zero_iff (w : Word) (lo n : Nat) :
    w.extractLsb' lo n = 0 ↔ w.toNat / 2 ^ lo % 2 ^ n = 0 := by
  rw [← BitVec.toNat_inj, BitVec.extractLsb'_toNat, Nat.shiftRight_eq_div_pow]
  simp

/-! ## The words of the formats as numbers -/

theorem toNat_mul_two_pow_lt {n lo k : Nat} (v : BitVec n) (fits : n + lo ≤ k) : v.toNat * 2 ^ lo < 2 ^ k :=
  calc v.toNat * 2 ^ lo
    _ < 2 ^ n * 2 ^ lo := Nat.mul_lt_mul_of_pos_right v.isLt (Nat.two_pow_pos lo)
    _ = 2 ^ (n + lo) := (Nat.pow_add ..).symm
    _ ≤ 2 ^ k := Nat.pow_le_pow_right (by decide) fits

/-- A field that ends inside the word has its value at its place. -/
theorem placed_toNat {n lo : Nat} (v : BitVec n) (fits : n + lo ≤ 32) : (placed v lo).toNat = v.toNat * 2 ^ lo := by
  have extended : v.toNat < 2 ^ 32 := Nat.lt_of_lt_of_le v.isLt (Nat.pow_le_pow_right (by decide) (by omega))
  rw [placed, BitVec.toNat_shiftLeft, BitVec.toNat_setWidth, Nat.mod_eq_of_lt extended, Nat.shiftLeft_eq,
    Nat.mod_eq_of_lt (toNat_mul_two_pow_lt v fits)]

/-- A field placed below all set bits of a word adds its value to it. -/
theorem or_placed_toNat {w : Word} {x n lo : Nat} (word : w.toNat = x) (v : BitVec n) (k : Nat) (above : 2 ^ k ∣ x)
    (below : n + lo ≤ k) (fits : n + lo ≤ 32) : (w ||| placed v lo).toNat = x + v.toNat * 2 ^ lo := by
  obtain ⟨m, rfl⟩ := above
  rw [BitVec.toNat_or, placed_toNat v fits, word, Nat.two_pow_add_eq_or_of_lt (toNat_mul_two_pow_lt v below)]

theorem encodeZ_toNat (op : BitVec 4) : (encodeZ op).toNat = op.toNat * 2 ^ 28 := placed_toNat op (by decide)

theorem encodeK_toNat (op : BitVec 4) (imm : Half) : (encodeK op imm).toNat = op.toNat * 2 ^ 28 + imm.toNat := by
  have opcode := placed_toNat op (lo := 28) (by decide)
  have word := or_placed_toNat opcode imm (lo := 0) 28 (by omega) (by decide) (by decide)
  exact word.trans (by omega)

theorem encodeF_toNat (op : BitVec 4) (n : BitVec 12) (p : BitVec 8) :
    (encodeF op n p).toNat = op.toNat * 2 ^ 28 + n.toNat * 2 ^ 16 + p.toNat := by
  have opcode := placed_toNat op (lo := 28) (by decide)
  have slots := or_placed_toNat opcode n (lo := 16) 28 (by omega) (by decide) (by decide)
  have word := or_placed_toNat slots p (lo := 0) 16 (by omega) (by decide) (by decide)
  exact word.trans (by omega)

theorem encodeC_toNat (op : BitVec 4) (inv : Bool) (len : BitVec 11) (addr : Half) :
    (encodeC op inv len addr).toNat = op.toNat * 2 ^ 28 + inv.toNat * 2 ^ 27 + len.toNat * 2 ^ 16 + addr.toNat := by
  have opcode := placed_toNat op (lo := 28) (by decide)
  have traversal := or_placed_toNat opcode (.ofBool inv) (lo := 27) 28 (by omega) (by decide) (by decide)
  have length := or_placed_toNat traversal len (lo := 16) 27 (by omega) (by decide) (by decide)
  have word := or_placed_toNat length addr (lo := 0) 16 (by omega) (by decide) (by decide)
  rw [BitVec.toNat_ofBool] at word
  exact word.trans (by omega)

/-! ## A word of a format is its fields -/

theorem encodeZ_eq_iff {op : BitVec 4} {w : Word} :
    encodeZ op = w ↔ opcodeField w = op ∧ w.extractLsb' 0 28 = 0 := by
  rw [extractLsb'_eq_zero_iff, ← BitVec.toNat_inj, ← BitVec.toNat_inj, encodeZ_toNat, opcodeField_toNat]
  omega

theorem encodeK_eq_iff {op : BitVec 4} {imm : Half} {w : Word} :
    encodeK op imm = w ↔ opcodeField w = op ∧ w.extractLsb' 16 12 = 0 ∧ imm16Field w = imm := by
  have imm_lt := imm.isLt
  rw [extractLsb'_eq_zero_iff]
  simp only [← BitVec.toNat_inj, encodeK_toNat, opcodeField_toNat, imm16Field_toNat]
  omega

theorem encodeF_eq_iff {op : BitVec 4} {n : BitVec 12} {p : BitVec 8} {w : Word} :
    encodeF op n p = w ↔
      opcodeField w = op ∧ w.extractLsb' 8 8 = 0 ∧ nslotField w = n ∧ psizeField w = p := by
  have n_lt := n.isLt
  have p_lt := p.isLt
  rw [extractLsb'_eq_zero_iff]
  simp only [← BitVec.toNat_inj, encodeF_toNat, opcodeField_toNat, nslotField_toNat, psizeField_toNat]
  omega

theorem encodeC_eq_iff {op : BitVec 4} {inv : Bool} {len : BitVec 11} {addr : Half} {w : Word} :
    encodeC op inv len addr = w ↔
      opcodeField w = op ∧ invField w = inv ∧ lenField w = len ∧ imm16Field w = addr := by
  have inv_lt := inv.toNat_lt
  have len_lt := len.isLt
  have addr_lt := addr.isLt
  rw [invField_eq_iff]
  simp only [← BitVec.toNat_inj, encodeC_toNat, opcodeField_toNat, lenField_toNat, imm16Field_toNat]
  omega

/-! ## The decoder's formats -/

theorem reservedCheck_eq_ok_iff {zero : Prop} [Decidable zero] {i j : Instr} :
    (if zero then .ok i else .error .reservedBits : Except DecodeError Instr) = .ok j ↔ zero ∧ i = j := by
  split <;> simp_all

theorem reservedCheck_eq_error_iff {zero : Prop} [Decidable zero] {i : Instr} {e : DecodeError} :
    (if zero then .ok i else .error .reservedBits : Except DecodeError Instr) = .error e ↔
      ¬ zero ∧ .reservedBits = e := by
  split <;> simp_all

theorem decodeZ_eq_ok_iff {w : Word} {i j : Instr} : decodeZ w i = .ok j ↔ w.extractLsb' 0 28 = 0 ∧ i = j :=
  reservedCheck_eq_ok_iff

theorem decodeZ_eq_error_iff {w : Word} {i : Instr} {e : DecodeError} :
    decodeZ w i = .error e ↔ w.toNat % 2 ^ 28 ≠ 0 ∧ .reservedBits = e := by
  rw [decodeZ, reservedCheck_eq_error_iff, extractLsb'_eq_zero_iff, Nat.pow_zero, Nat.div_one]

theorem decodeK_eq_ok_iff {w : Word} {f : Half → Instr} {j : Instr} :
    decodeK w f = .ok j ↔ w.extractLsb' 16 12 = 0 ∧ f (imm16Field w) = j := reservedCheck_eq_ok_iff

theorem decodeK_eq_error_iff {w : Word} {f : Half → Instr} {e : DecodeError} :
    decodeK w f = .error e ↔ w.toNat / 2 ^ 16 % 2 ^ 12 ≠ 0 ∧ .reservedBits = e := by
  rw [decodeK, reservedCheck_eq_error_iff, extractLsb'_eq_zero_iff]

theorem decodeF_eq_ok_iff {w : Word} {j : Instr} :
    decodeF w = .ok j ↔ w.extractLsb' 8 8 = 0 ∧ .cfg (nslotField w) (psizeField w) = j := reservedCheck_eq_ok_iff

theorem decodeF_eq_error_iff {w : Word} {e : DecodeError} :
    decodeF w = .error e ↔ w.toNat / 2 ^ 8 % 2 ^ 8 ≠ 0 ∧ .reservedBits = e := by
  rw [decodeF, reservedCheck_eq_error_iff, extractLsb'_eq_zero_iff]

/-- Format C has no reserved bits (R96). -/
theorem decodeC_eq_ok (w : Word) :
    decodeC w = .ok (if invField w then .crcComputeInv (imm16Field w) (lenField w)
      else .crcCompute (imm16Field w) (lenField w)) := (apply_ite Except.ok ..).symm

/-- How the decoder reads a word: by the format of its opcode, in which the encoder writes the same commands (R92, R94), or
not at all (R95). -/
inductive ReadAs (w : Word) : Prop where
  | formatZ (i : Instr) (opcode : w.toNat / 2 ^ 28 ∈ [0x0, 0x2, 0x3, 0x4, 0x5, 0x9, 0xA])
      (reads : decodeWord w = decodeZ w i) (writes : encode i = encodeZ (opcodeField w))
  | formatK (f : Half → Instr) (opcode : w.toNat / 2 ^ 28 ∈ [0x6, 0x7]) (reads : decodeWord w = decodeK w f)
      (writes : ∀ imm, encode (f imm) = encodeK (opcodeField w) imm)
  | formatF (opcode : w.toNat / 2 ^ 28 = 0x1) (reads : decodeWord w = decodeF w)
  | formatC (opcode : w.toNat / 2 ^ 28 = 0x8) (reads : decodeWord w = decodeC w)
  | illegal (opcode : 0xB ≤ w.toNat / 2 ^ 28) (reads : decodeWord w = .error .illegalOpcode)

theorem opcodeField_eq_of_number {w : Word} {op : BitVec 4} (number : w.toNat / 2 ^ 28 = op.toNat) :
    opcodeField w = op :=
  BitVec.eq_of_toNat_eq ((opcodeField_toNat w).trans number)

theorem ReadAs.ofZ {w : Word} {i : Instr} (op : BitVec 4) (number : w.toNat / 2 ^ 28 = op.toNat)
    (formatZ : op.toNat ∈ [0x0, 0x2, 0x3, 0x4, 0x5, 0x9, 0xA]) (reads : decodeWord w = decodeZ w i)
    (writes : encode i = encodeZ op) : ReadAs w :=
  .formatZ i (number ▸ formatZ) reads (opcodeField_eq_of_number number ▸ writes)

theorem ReadAs.ofK {w : Word} {f : Half → Instr} (op : BitVec 4) (number : w.toNat / 2 ^ 28 = op.toNat)
    (formatK : op.toNat ∈ [0x6, 0x7]) (reads : decodeWord w = decodeK w f)
    (writes : ∀ imm, encode (f imm) = encodeK op imm) : ReadAs w :=
  .formatK f (number ▸ formatK) reads (opcodeField_eq_of_number number ▸ writes)

theorem readAs (w : Word) : ReadAs w := by
  have reads := decodeWord.eq_def w
  rw [opcodeField_toNat] at reads
  split at reads
  next number => exact .ofZ 0x0 number (by decide) reads rfl
  next number => exact .formatF number reads
  next number => exact .ofZ 0x2 number (by decide) reads rfl
  next number => exact .ofZ 0x3 number (by decide) reads rfl
  next number => exact .ofZ 0x4 number (by decide) reads rfl
  next number => exact .ofZ 0x5 number (by decide) reads rfl
  next number => exact .ofK 0x6 number (by decide) reads fun _ => rfl
  next number => exact .ofK 0x7 number (by decide) reads fun _ => rfl
  next number => exact .formatC number reads
  next number => exact .ofZ 0x9 number (by decide) reads rfl
  next number => exact .ofZ 0xA number (by decide) reads rfl
  next =>
    simp only [imp_false] at *
    exact .illegal (by omega) reads

/-! ## The decoder inverts the encoder -/

/-- A word that decodes is the word of the command it decodes to: each format reads off the fields that it writes. -/
theorem encode_of_decodeWord {w : Word} {i : Instr} (decodes : decodeWord w = .ok i) : encode i = w := by
  cases readAs w with
  | formatZ j _ reads writes =>
    obtain ⟨zero, rfl⟩ := decodeZ_eq_ok_iff.1 (reads.symm.trans decodes)
    exact writes.trans (encodeZ_eq_iff.2 ⟨rfl, zero⟩)
  | formatK f _ reads writes =>
    obtain ⟨zero, rfl⟩ := decodeK_eq_ok_iff.1 (reads.symm.trans decodes)
    exact (writes _).trans (encodeK_eq_iff.2 ⟨rfl, zero, rfl⟩)
  | formatF number reads =>
    obtain ⟨zero, rfl⟩ := decodeF_eq_ok_iff.1 (reads.symm.trans decodes)
    exact encodeF_eq_iff.2 ⟨opcodeField_eq_of_number number, zero, rfl, rfl⟩
  | formatC number reads =>
    have op : opcodeField w = 0x8 := opcodeField_eq_of_number number
    cases (decodeC_eq_ok w).symm.trans (reads.symm.trans decodes)
    cases inv : invField w <;> exact encodeC_eq_iff.2 ⟨op, inv, rfl, rfl⟩
  | illegal _ reads => cases reads.symm.trans decodes

theorem decodeWord_encodeK {op : BitVec 4} {f : Half → Instr} (imm : Half)
    (branch : ∀ w, opcodeField w = op → decodeWord w = decodeK w f) : decodeWord (encodeK op imm) = .ok (f imm) := by
  obtain ⟨opcode, zero, value⟩ := encodeK_eq_iff.1 (rfl : encodeK op imm = _)
  exact (branch _ opcode).trans (decodeK_eq_ok_iff.2 ⟨zero, congrArg f value⟩)

theorem decodeWord_encodeF (n : BitVec 12) (p : BitVec 8) : decodeWord (encodeF 0x1 n p) = .ok (.cfg n p) := by
  obtain ⟨opcode, zero, slots, size⟩ := encodeF_eq_iff.1 (rfl : encodeF 0x1 n p = _)
  rw [decodeWord, opcode]
  exact decodeF_eq_ok_iff.2 ⟨zero, congrArg₂ Instr.cfg slots size⟩

theorem decodeWord_encodeC (inv : Bool) (len : BitVec 11) (addr : Half) :
    decodeWord (encodeC 0x8 inv len addr) = .ok (if inv then .crcComputeInv addr len else .crcCompute addr len) := by
  obtain ⟨opcode, traversal, length, address⟩ := encodeC_eq_iff.1 (rfl : encodeC 0x8 inv len addr = _)
  rw [decodeWord, opcode]
  exact (decodeC_eq_ok _).trans (by rw [traversal, length, address])

theorem decodeWord_encode (i : Instr) : decodeWord (encode i) = .ok i := by
  cases i with
  | nop | start | stop | acquire | release | decode | vreset => rfl
  | cfg n p => exact decodeWord_encodeF n p
  | crcBuild poly => exact decodeWord_encodeK poly fun w opcode => by rw [decodeWord, opcode]; rfl
  | crcSeed seed => exact decodeWord_encodeK seed fun w opcode => by rw [decodeWord, opcode]; rfl
  | crcCompute addr len => exact decodeWord_encodeC false len addr
  | crcComputeInv addr len => exact decodeWord_encodeC true len addr

theorem decodeWord_eq_ok_iff {w : Word} {i : Instr} : decodeWord w = .ok i ↔ encode i = w :=
  ⟨encode_of_decodeWord, fun word => word ▸ decodeWord_encode i⟩

/-- Settles O1, by the format of the command: the fields read back are those written. -/
theorem decodeOfEncodeIsIdentity : Obligations.DecodeOfEncodeIsIdentity := decodeWord_encode

/-! ## The words that do not decode -/

/-- R95: an opcode above the last one of the table, and no other, is illegal. -/
theorem decodeWord_eq_illegalOpcode_iff {w : Word} :
    decodeWord w = .error .illegalOpcode ↔ 0xB ≤ w.toNat / 2 ^ 28 := by
  cases readAs w with
  | formatZ i opcode reads =>
    simp only [List.mem_cons, List.not_mem_nil, or_false] at opcode
    simp only [reads, decodeZ_eq_error_iff, reduceCtorEq, and_false, false_iff]
    omega
  | formatK f opcode reads =>
    simp only [List.mem_cons, List.not_mem_nil, or_false] at opcode
    simp only [reads, decodeK_eq_error_iff, reduceCtorEq, and_false, false_iff]
    omega
  | formatF opcode reads => simp [reads, decodeF_eq_error_iff, opcode, -Nat.reducePow]
  | formatC opcode reads => simp [reads, decodeC_eq_ok, opcode, -Nat.reducePow]
  | illegal opcode reads => exact iff_of_true reads opcode

/-- R96: a "must be 0" field of the word's format that is not 0. -/
theorem decodeWord_eq_reservedBits_iff {w : Word} :
    decodeWord w = .error .reservedBits ↔
      (w.toNat / 2 ^ 28 ∈ [0x0, 0x2, 0x3, 0x4, 0x5, 0x9, 0xA] ∧ w.toNat % 2 ^ 28 ≠ 0) ∨
      (w.toNat / 2 ^ 28 ∈ [0x6, 0x7] ∧ w.toNat / 2 ^ 16 % 2 ^ 12 ≠ 0) ∨
      (w.toNat / 2 ^ 28 = 0x1 ∧ w.toNat / 2 ^ 8 % 2 ^ 8 ≠ 0) := by
  simp only [List.mem_cons, List.not_mem_nil, or_false]
  cases readAs w with
  | formatZ i opcode reads =>
    simp only [List.mem_cons, List.not_mem_nil, or_false] at opcode
    simp only [reads, decodeZ_eq_error_iff, and_true]
    omega
  | formatK f opcode reads =>
    simp only [List.mem_cons, List.not_mem_nil, or_false] at opcode
    simp only [reads, decodeK_eq_error_iff, and_true]
    omega
  | formatF opcode reads =>
    simp only [reads, decodeF_eq_error_iff, and_true]
    omega
  | formatC opcode reads =>
    simp only [reads, decodeC_eq_ok, reduceCtorEq, false_iff]
    omega
  | illegal opcode reads =>
    simp only [reads, Except.error.injEq, reduceCtorEq, false_iff]
    omega

/-- Settles O2: the decoder's answer is the case, and a word of a command would decode. -/
theorem everyWordIsOneCommandOrOneFault : Obligations.EveryWordIsOneCommandOrOneFault := by
  intro w
  have no_command (e : DecodeError) (fails : decodeWord w = .error e) (j : Instr) : encode j ≠ w := fun word => by
    cases fails.symm.trans (decodeWord_eq_ok_iff.2 word)
  cases answer : decodeWord w with
  | ok i =>
    refine .inl ⟨i, rfl, encode_of_decodeWord answer, fun j word => ?_⟩
    cases answer.symm.trans (decodeWord_eq_ok_iff.2 word)
    rfl
  | error e =>
    cases e with
    | illegalOpcode => exact .inr (.inl ⟨rfl, decodeWord_eq_illegalOpcode_iff.1 answer, no_command _ answer⟩)
    | reservedBits =>
      have legal : w.toNat / 2 ^ 28 < 0xB := by
        by_contra illegal
        cases answer.symm.trans (decodeWord_eq_illegalOpcode_iff.2 (Nat.le_of_not_lt illegal))
      exact .inr (.inr ⟨rfl, legal, no_command _ answer⟩)

/-- Settles O3: the word of the command that is read has the fields of its format. -/
theorem operandsAreReadInPlace : Obligations.OperandsAreReadInPlace := by
  intro w
  refine ⟨fun n p decodes => ?_, fun poly decodes => ?_, fun seed decodes => ?_, fun addr len decodes => ?_,
    fun addr len decodes => ?_⟩
  · obtain ⟨_, _, rfl, rfl⟩ := encodeF_eq_iff.1 (encode_of_decodeWord decodes)
    exact ⟨nslotField_toNat w, psizeField_toNat w⟩
  · obtain ⟨_, _, rfl⟩ := encodeK_eq_iff.1 (encode_of_decodeWord decodes)
    exact imm16Field_toNat w
  · obtain ⟨_, _, rfl⟩ := encodeK_eq_iff.1 (encode_of_decodeWord decodes)
    exact imm16Field_toNat w
  · obtain ⟨_, traversal, rfl, rfl⟩ := encodeC_eq_iff.1 (encode_of_decodeWord decodes)
    exact ⟨imm16Field_toNat w, lenField_toNat w, traversal⟩
  · obtain ⟨_, traversal, rfl, rfl⟩ := encodeC_eq_iff.1 (encode_of_decodeWord decodes)
    exact ⟨imm16Field_toNat w, lenField_toNat w, traversal⟩

/-- Settles O6: each word is the word of its command. -/
theorem writtenWordsDecode : Obligations.WrittenWordsDecode := by
  simp only [Obligations.WrittenWordsDecode, decodeWord_eq_ok_iff]
  decide

/-! ## The assembler -/

/-- The assembler on a line whose operands fit under `fits`, with its words then. -/
theorem assemble_eq_ite {l : Asm} {fits : Prop} [Decidable fits] {ws : List Word} (check : l.wellFormed = true ↔ fits)
    (words : fits → l.expand.map encode = ws) : assemble l = if fits then some ws else none := by
  by_cases h : fits
  · rw [assemble, if_pos (check.2 h), if_pos h, words h]
  · rw [assemble, if_neg (mt check.1 h), if_neg h]

/-- The same for a line of one command. -/
theorem assemble_command {l : Asm} {i : Instr} {fits : Prop} [Decidable fits] {w : Word}
    (check : l.wellFormed = true ↔ fits) (command : l.expand = [i]) (word : fits → encode i = w) :
    assemble l = if fits then some [w] else none :=
  assemble_eq_ite check fun h => by rw [command, List.map_singleton, word h]

theorem eq_ofNat_of_toNat {w : Word} {x : Nat} (value : w.toNat = x) : w = .ofNat 32 x := by
  rw [← value, BitVec.ofNat_toNat, BitVec.setWidth_eq]

theorem encodeK_ofNat (op : BitVec 4) {x : Nat} (fits : x ≤ 0xFFFF) :
    encodeK op (.ofNat 16 x) = .ofNat 32 (op.toNat * 2 ^ 28 + x) := by
  refine eq_ofNat_of_toNat ((encodeK_toNat ..).trans ?_)
  rw [BitVec.toNat_ofNat, Nat.mod_eq_of_lt (by omega)]

theorem encodeF_ofNat (op : BitVec 4) {n p : Nat} (slots : n ≤ 4095) (size : p ≤ 255) :
    encodeF op (.ofNat 12 n) (.ofNat 8 p) = .ofNat 32 (op.toNat * 2 ^ 28 + n * 2 ^ 16 + p) := by
  refine eq_ofNat_of_toNat ((encodeF_toNat ..).trans ?_)
  rw [BitVec.toNat_ofNat, BitVec.toNat_ofNat, Nat.mod_eq_of_lt (by omega), Nat.mod_eq_of_lt (by omega)]

theorem encodeC_ofNat (op : BitVec 4) (inv : Bool) {a l : Nat} (addr : a ≤ 0xFFFF) (len : l ≤ 2047) :
    encodeC op inv (.ofNat 11 l) (.ofNat 16 a) =
      .ofNat 32 (op.toNat * 2 ^ 28 + inv.toNat * 2 ^ 27 + l * 2 ^ 16 + a) := by
  refine eq_ofNat_of_toNat ((encodeC_toNat ..).trans ?_)
  rw [BitVec.toNat_ofNat, BitVec.toNat_ofNat, Nat.mod_eq_of_lt (by omega), Nat.mod_eq_of_lt (by omega)]

/-- Settles O7: for each line with operands, its check and its words; the others are finitely many. -/
theorem assemblerWordsAndErrors : Obligations.AssemblerWordsAndErrors := by
  refine ⟨fun n p => ?cfg, fun x => ?crcBuild, fun x => ?crcSeed, fun a l => ?crcCompute, fun a l => ?crcComputeInv,
    rfl, rfl, rfl, fun poly seed => ?crcSetup, fun base => ?crcPkt⟩
  case cfg =>
    exact assemble_command (by simp [Asm.wellFormed]) rfl fun ⟨slots, size⟩ => encodeF_ofNat 0x1 slots size
  case crcBuild => exact assemble_command (by simp [Asm.wellFormed]) rfl fun fits => encodeK_ofNat 0x6 fits
  case crcSeed => exact assemble_command (by simp [Asm.wellFormed]) rfl fun fits => encodeK_ofNat 0x7 fits
  case crcCompute =>
    exact assemble_command (by simp [Asm.wellFormed]) rfl fun ⟨addr, len⟩ => encodeC_ofNat 0x8 false addr len
  case crcComputeInv =>
    exact assemble_command (by simp [Asm.wellFormed]) rfl fun ⟨addr, len⟩ => encodeC_ofNat 0x8 true addr len
  case crcSetup =>
    exact assemble_eq_ite (by simp [Asm.wellFormed]) fun ⟨poly, seed⟩ =>
      congrArg₂ (fun build start => [build, start]) (encodeK_ofNat 0x6 poly) (encodeK_ofNat 0x7 seed)
  case crcPkt => simp [assemble, Asm.wellFormed, Asm.expand]

end Sys2Proof

namespace Sys2Proof.Machine

/-! ## A word at the command port -/

theorem State.portOpen_iff (s : State) : s.portOpen = true ↔ s.faulted = false ∧ s.consState ≠ .waiting := by
  simp [State.portOpen]

theorem commandStep_of_ok {w : Word} {i : Instr} {s : State} (opened : s.portOpen = true)
    (decodes : decodeWord w = .ok i) : commandStep w s = exec i s := by
  rw [commandStep, if_pos opened, decodes]

theorem commandStep_of_error {w : Word} {e : DecodeError} {s : State} (opened : s.portOpen = true)
    (fails : decodeWord w = .error e) : commandStep w s = .next (s.takeFault (decodeFault e) w) := by
  rw [commandStep, if_pos opened, fails]

theorem commandStep_of_closed (w : Word) {s : State} (closed : s.portOpen = false) : commandStep w s = .next s := by
  rw [commandStep, if_neg (by simp [closed])]

/-- A word that does not decode, at an open port: fault entry and nothing else (R95, R96, R255). -/
theorem step_decode_error {s : State} {w : Word} {rest : List Turn} {e : DecodeError} (running : s.faulted = false)
    (ready : s.consState ≠ .waiting) (offered : s.pending = .command w :: rest) (fails : decodeWord w = .error e) :
    step s = .next (({ s with pending := rest } : State).takeFault (decodeFault e) w) :=
  (step_of_pending offered).trans (commandStep_of_error ((State.portOpen_iff _).2 ⟨running, ready⟩) fails)

/-- Settles O4: such a word decodes to no command, so the port enters the fault state. -/
theorem illegalOpcodesFault : Obligations.IllegalOpcodesFault := fun _ _ _ running ready offered illegal =>
  step_decode_error running ready offered (decodeWord_eq_illegalOpcode_iff.2 illegal)

/-- Settles O5: a reserved bit of any of the three formats that have some is a decode fault; format C always decodes. -/
theorem reservedBitsFault : Obligations.ReservedBitsFault := by
  refine ⟨fun s w rest running ready offered reserved =>
    step_decode_error running ready offered (decodeWord_eq_reservedBits_iff.2 reserved), fun w opcode => ?_⟩
  rw [decodeWord, opcodeField_toNat, opcode]
  exact ⟨_, decodeC_eq_ok w⟩

/-- Settles O8: the port looks at the registers that the turn's removal leaves as they were. -/
theorem stepRunsTheDecodedCommand : Obligations.StepRunsTheDecodedCommand := by
  intro s w i rest offered decodes
  refine ⟨fun running ready => ?_, fun waiting => ?_⟩
  · exact (step_of_pending offered).trans (commandStep_of_ok ((State.portOpen_iff _).2 ⟨running, ready⟩) decodes)
  · exact (step_of_pending offered).trans (commandStep_of_closed w (by simp [State.portOpen, waiting]))

end Sys2Proof.Machine

/-! Proofs of the family 40_buffer_commands: the rule of each ring-buffer command and of the wake step, one equation per
case (O15 to O21); what a faulted block does with a turn (O9); and what a turn does to a consumer that waits and to the flag
it waits for: no wakeup is lost (O47), none comes without a post (O49), and one that is due is taken (O59). -/

namespace Sys2Proof.Machine

/-! ## Flags and indices -/

theorem State.isValid_iff (s : State) (i : Nat) : s.isValid i = true ↔ s.validByte i ≠ 0 := bne_iff_ne

theorem State.isValid_eq_false_iff (s : State) (i : Nat) : s.isValid i = false ↔ s.validByte i = 0 :=
  bne_eq_false_iff_eq

theorem State.isValid_eq_decide (s : State) (i : Nat) : s.isValid i = decide (s.validByte i ≠ 0) := by
  rw [Bool.eq_iff_iff, s.isValid_iff, decide_eq_true_iff]

theorem State.nextSlot_toNat {s : State} (i : BitVec 12) (h : 0 < s.n.toNat) :
    (s.nextSlot i).toNat = (i.toNat + 1) % s.n.toNat := by
  rw [State.nextSlot, BitVec.toNat_ofNat, Nat.mod_eq_of_lt ((Nat.mod_lt _ h).trans s.n.isLt)]

theorem badRing_iff (n : BitVec 12) (p : BitVec 8) :
    badRing n p = true ↔ n = 0 ∨ p = 0 ∨ Config.arenaMax < n.toNat * p.toNat := by
  simp only [badRing, Bool.or_eq_true, beq_iff_eq, decide_eq_true_iff, or_assoc]

/-! ## NOP, CFG, START, STOP -/

/-- Settles O15: NOP answers the state it was given, and a word of opcode 0 other than 0 has a reserved bit set. -/
theorem nopChangesNothing : Obligations.NopChangesNothing :=
  ⟨fun _ => rfl,
    fun s rest running ready offered => (stepRunsTheDecodedCommand s 0 .nop rest offered rfl).1 running ready,
    fun _ opcode low => decodeWord_eq_reservedBits_iff.2 (.inl ⟨opcode ▸ List.mem_cons_self, low⟩)⟩

theorem execCfg_of_busy {n : BitVec 12} {p : BitVec 8} {s : State}
    (busy : s.prodPhase ≠ .stopped ∨ s.consState ≠ .idle) :
    execCfg n p s = .next (s.takeFault .busy (encode (.cfg n p))) := if_pos (by simpa using busy)

theorem execCfg_of_stopped {n : BitVec 12} {p : BitVec 8} {s : State} (stopped : s.prodPhase = .stopped)
    (idle : s.consState = .idle) :
    execCfg n p s =
      if badRing n p then .next (s.takeFault .badConfig (encode (.cfg n p))) else .next (s.configure n p) :=
  if_neg (by simp [stopped, idle])

theorem decodeWord_cfg_ofNat (n : BitVec 12) (p : BitVec 8) :
    decodeWord (.ofNat 32 (0x10000000 + n.toNat * 2 ^ 16 + p.toNat)) = .ok (.cfg n p) :=
  decodeWord_eq_ok_iff.2 (eq_ofNat_of_toNat (encodeF_toNat 0x1 n p))

/-- Settles O16: BUSY comes before BAD_CONFIG, and what is left is an accepted ring. -/
theorem cfgFollowsItsRule : Obligations.CfgFollowsItsRule := by
  intro n p s
  refine ⟨decodeWord_cfg_ofNat n p, execCfg_of_busy, fun stopped idle bad => ?_,
    fun stopped idle slots size fits => ⟨s.configure n p, ?_, fun _ => rfl, fun _ => rfl, rfl⟩⟩
  · exact (execCfg_of_stopped stopped idle).trans (if_pos ((badRing_iff n p).2 bad))
  · have good : ¬ badRing n p = true := by
      rw [badRing_iff]
      exact not_or.2 ⟨slots, not_or.2 ⟨size, Nat.not_lt_of_le fits⟩⟩
    exact (execCfg_of_stopped stopped idle).trans (if_neg good)

/-- Settles O17, by START's two tests. -/
theorem startFollowsItsRule : Obligations.StartFollowsItsRule := by
  refine fun s => ⟨rfl, fun unconfigured => ?_, fun configured stopped => ?_, fun configured moving => ?_⟩ <;>
    rw [exec, execStart]
  · rw [if_pos (by simpa using unconfigured)]
    rfl
  · rw [if_neg (by simpa using configured), if_pos (by simpa using stopped)]
  · rw [if_neg (by simpa using configured), if_neg (by simpa using moving)]

/-- Settles O18: STOP looks at nothing and writes neither byte space. -/
theorem stopFollowsItsRule : Obligations.StopFollowsItsRule := fun _ =>
  ⟨rfl, _, rfl, rfl, State.validByte_congr rfl, State.arenaRead_congr rfl⟩

/-! ## ACQUIRE and its wake step -/

/-- `AcquireReturn()` written out, for a flag of a known value (R126). -/
theorem State.acquireReturn_eq {s : State} {v : Bool} (flag : s.isValid s.rIdx.toNat = v) :
    s.acquireReturn = { s with
      acqOffset := .ofNat 16 (s.rIdx.toNat * s.p.toNat), acqValid := v, acqDirty := false, decoded := false
      consState := .holding } := by
  rw [State.acquireReturn, flag]
  rfl

theorem execAcquire_of_idle {s : State} (configured : s.cfgDone = true) (idle : s.consState = .idle)
    (slot : s.rIdx.toNat < s.n.toNat) :
    execAcquire s =
      if s.isValid s.rIdx.toNat then .next s.acquireReturn
      else .next { s with event := false, consState := .waiting } := by
  rw [execAcquire, if_neg (by simp [configured]), if_neg (by simp [idle]),
    if_neg (by simpa using (s.slotExists_iff _).2 slot)]

theorem execAcquire_of_valid {s : State} (configured : s.cfgDone = true) (idle : s.consState = .idle)
    (slot : s.rIdx.toNat < s.n.toNat) (valid : s.validByte s.rIdx.toNat ≠ 0) :
    execAcquire s = .next s.acquireReturn :=
  (execAcquire_of_idle configured idle slot).trans (if_pos ((s.isValid_iff _).2 valid))

theorem execAcquire_of_invalid {s : State} (configured : s.cfgDone = true) (idle : s.consState = .idle)
    (slot : s.rIdx.toNat < s.n.toNat) (invalid : s.validByte s.rIdx.toNat = 0) :
    execAcquire s = .next { s with event := false, consState := .waiting } :=
  (execAcquire_of_idle configured idle slot).trans (if_neg (by simpa using (s.isValid_eq_false_iff _).2 invalid))

/-- Settles O19: the two faults in order, then the flag decides. -/
theorem acquireFollowsItsRule : Obligations.AcquireFollowsItsRule := by
  refine fun s => ⟨rfl, fun unconfigured => ?_, fun configured busy => ?_, fun configured idle slot valid => ?_,
    fun configured idle => execAcquire_of_invalid configured idle⟩
  · exact if_pos (by simpa using unconfigured)
  · exact (if_neg (by simpa using configured)).trans (if_pos (by simpa using busy))
  · rw [exec, execAcquire_of_valid configured idle slot valid, State.acquireReturn_eq ((s.isValid_iff _).2 valid)]

theorem State.wakeEnabled_iff (s : State) :
    s.wakeEnabled = true ↔ s.consState = .waiting ∧ s.event = true ∧ s.faulted = false := by
  simp [State.wakeEnabled, and_assoc]

theorem wakeStep_of_disabled {s : State} (disabled : ¬ s.wakeEnabled = true) : wakeStep s = .next s :=
  if_pos (by simpa using disabled)

theorem wakeStep_of_enabled {s : State} (enabled : s.wakeEnabled = true) (slot : s.rIdx.toNat < s.n.toNat) :
    wakeStep s = .next { s with event := false }.acquireReturn := by
  rw [wakeStep, if_neg (by simpa using enabled), if_neg (by simpa using (s.slotExists_iff _).2 slot)]

/-- Settles O20: the three conditions are those under which the step is enabled. -/
theorem wakeFollowsItsRule : Obligations.WakeFollowsItsRule := by
  refine fun s rest offered => ⟨fun waiting posted running slot => ?_, fun missing => ?_⟩ <;>
    refine (step_of_pending offered).trans ?_
  · have enabled : ({ s with pending := rest } : State).wakeEnabled = true :=
      (State.wakeEnabled_iff _).2 ⟨waiting, posted, running⟩
    refine (wakeStep_of_enabled enabled slot).trans ?_
    rw [State.acquireReturn_eq (State.isValid_eq_decide _ _)]
    rfl
  · refine wakeStep_of_disabled fun enabled => ?_
    obtain ⟨waiting, posted, running⟩ := (State.wakeEnabled_iff _).1 enabled
    rcases missing with ready | unposted | faulted
    · exact ready waiting
    · exact nomatch unposted.symm.trans posted
    · exact nomatch faulted.symm.trans running

/-! ## RELEASE -/

theorem State.releaseVariant_of_consumes {s : State}
    (consumes : s.config.variant = .b ∨ (s.acqValid = true ∧ s.validByte s.rIdx.toNat ≠ 0)) :
    s.releaseVariant = s.consumeSlot := by
  rcases s.releaseVariant_cases with ⟨e, _⟩ | ⟨_, variant, keeps⟩
  · exact e
  · obtain ⟨acquired, valid⟩ := consumes.resolve_left (by simp [variant])
    simp [acquired, (s.isValid_iff _).2 valid] at keeps

theorem State.releaseVariant_of_keeps {s : State} (variant : s.config.variant = .a)
    (keeps : s.acqValid = false ∨ s.validByte s.rIdx.toNat = 0) : s.releaseVariant = s := by
  rcases s.releaseVariant_cases with ⟨_, b | ⟨acquired, valid⟩⟩ | ⟨e, _⟩
  · exact nomatch variant.symm.trans b
  · rcases keeps with unacquired | invalid
    · exact nomatch unacquired.symm.trans acquired
    · exact absurd invalid ((s.isValid_iff _).1 valid)
  · exact e

theorem execRelease_of_holding {s : State} (configured : s.cfgDone = true) (holding : s.consState = .holding)
    (slot : s.rIdx.toNat < s.n.toNat) :
    execRelease s = .next { s.releaseVariant with consState := .idle, acqDirty := false } := by
  rw [execRelease, if_neg (by simp [configured]), if_neg (by simp [holding]),
    if_neg (by simpa using (s.slotExists_iff _).2 slot)]

/-- Settles O21: the two faults in order, then the variant's rule: one flag and `R_IDX`, or nothing of the ring. -/
theorem releaseFollowsItsRule : Obligations.ReleaseFollowsItsRule := by
  refine fun s => ⟨rfl, fun unconfigured => ?_, fun configured free => ?_, fun form configured holding slot =>
    ⟨fun consumes => ?_, fun variant keeps => ?_⟩⟩
  · exact if_pos (by simpa using unconfigured)
  · exact (if_neg (by simpa using configured)).trans (if_pos (by simpa using free))
  · refine ⟨{ s.consumeSlot with consState := .idle, acqDirty := false }, ?_, ?_, fun i => ?_, rfl⟩
    · rw [exec, execRelease_of_holding configured holding slot, State.releaseVariant_of_consumes consumes]
    · exact State.nextSlot_toNat s.rIdx (Nat.zero_lt_of_lt slot)
    · exact State.validByte_setValid form.valid_wf s.rIdx.toNat i 0
  · rw [exec, execRelease_of_holding configured holding slot, State.releaseVariant_of_keeps variant keeps]

/-! ## The faulted block -/

/-- A faulted block answers read-port accesses and the reset line; every other turn passes it by (R111; log entry 2). -/
theorem takeTurn_of_faulted {u : Turn} {s : State} (faulted : s.faulted = true) (read : ∀ a, u ≠ .read a)
    (reset : u ≠ .reset) : takeTurn u s = .next s := by
  cases u with
  | command w => exact commandStep_of_closed w (by simp [State.portOpen, faulted])
  | wake => exact wakeStep_of_disabled (by simp [State.wakeEnabled, faulted])
  | produce => exact if_pos faulted
  | serial e => exact if_pos faulted
  | read a => exact absurd rfl (read a)
  | reset => exact absurd rfl reset

/-- Settles O9: the turn's removal leaves the block faulted, and the read port does not look at the fault record. -/
theorem faultedBlockTakesNoStep : Obligations.FaultedBlockTakesNoStep := by
  intro s u rest faulted offered
  have passes (read : ∀ a, u ≠ .read a) (reset : u ≠ .reset) : step s = .next { s with pending := rest } :=
    (step_of_pending offered).trans (takeTurn_of_faulted faulted read reset)
  refine ⟨fun _ command => passes (by simp [command]) (by simp [command]),
    fun wake => passes (by simp [wake]) (by simp [wake]), fun produce => passes (by simp [produce]) (by simp [produce]),
    fun _ serial => passes (by simp [serial]) (by simp [serial]), fun a read => ?_⟩
  rw [step_of_pending offered, read]
  exact readStep_eq a { s with pending := rest }

/-! ## Runs -/

/-- No turn touches the list of turns: only the step takes one off (R272). -/
theorem takeTurn_pending {u : Turn} {s t : State} (h : takeTurn u s = .next t) : t.pending = s.pending := by
  cases u with
  | command w =>
    rcases commandStep_cases h with ⟨_, rfl⟩ | ⟨_, i, _, h⟩ | ⟨_, _, _, rfl⟩
    · rfl
    · obtain ⟨_, pending, _⟩ := (exec_frame h).outside
      exact pending
    · rfl
  | wake => rcases wakeStep_cases h with ⟨_, rfl⟩ | ⟨_, _, rfl⟩ <;> rfl
  | produce =>
    rcases produceStep_cases h with rfl | ⟨_, _, _, rfl⟩ | ⟨_, _, _, rfl⟩ | ⟨_, _, _, _, rfl⟩ | ⟨_, _, _, rfl⟩
    case inr.inl => rw [State.reportOverrun_eq]
    all_goals rfl
  | serial e =>
    rcases serialStep_cases h with rfl | ⟨_, _, _, rfl⟩ | ⟨_, _, _, ⟨b, _, _, rfl⟩ | ⟨_, rfl⟩ | ⟨_, rfl⟩⟩ <;> rfl
  | read a =>
    obtain ⟨v, d, e⟩ := readStep_eq a s
    cases e.symm.trans h
    rfl
  | reset => cases h; rfl

theorem run_succ_cases {M : Host.Core} {k : Nat} {s t : M.State} (h : M.run (k + 1) s = .next t) :
    ∃ u, M.step s = .next u ∧ M.run k u = .next t := by
  simp only [Host.Core.run] at h
  split at h
  · next u first => exact ⟨u, first, h⟩
  all_goals cases h

/-- What every step keeps, every run keeps. -/
theorem run_keeps {M : Host.Core} {P : M.State → Prop} (keeps : ∀ s t, P s → M.step s = .next t → P t) {k : Nat}
    {s t : M.State} (start : P s) (h : M.run k s = .next t) : P t := by
  induction k generalizing s with
  | zero => cases h; exact start
  | succ k ih =>
    obtain ⟨u, first, rest⟩ := run_succ_cases h
    exact ih (keeps s u start first) rest

/-! ## The waiting consumer -/

/-- A waiting consumer waits on in `t`, as faulted or not as in `s`: a post may have come, though none from a stopped
producer, and none is taken back; a stopped producer stays stopped. -/
structure State.WaitsOn (s t : State) : Prop where
  waiting : t.consState = .waiting
  faulted : t.faulted = s.faulted
  event : t.event = s.event ∨ (t.event = true ∧ s.prodPhase ≠ .stopped)
  stopped : s.prodPhase = .stopped → t.prodPhase = .stopped

theorem State.WaitsOn.refl {s : State} (waiting : s.consState = .waiting) : s.WaitsOn s :=
  ⟨waiting, rfl, .inl rfl, id⟩

theorem produceStep_waitsOn {s t : State} (waiting : s.consState = .waiting) (h : produceStep s = .next t) :
    s.WaitsOn t := by
  rcases produceStep_cases h with rfl | ⟨_, ph, _, rfl⟩ | ⟨_, ph, _, rfl⟩ | ⟨_, ph, _, _, rfl⟩ | ⟨_, ph, _, rfl⟩
  case inl => exact .refl waiting
  all_goals have runs : s.prodPhase ≠ .stopped := by simp [ph]
  · rw [State.reportOverrun_eq]
    exact ⟨waiting, rfl, .inl rfl, fun st => absurd st runs⟩
  · exact ⟨waiting, rfl, .inr ⟨rfl, runs⟩, fun st => absurd st runs⟩
  · exact ⟨waiting, rfl, .inr ⟨rfl, runs⟩, fun st => absurd st runs⟩
  · exact ⟨waiting, rfl, .inl rfl, fun st => absurd st runs⟩

theorem serialStep_waitsOn {e : SerialInput} {s t : State} (waiting : s.consState = .waiting)
    (h : serialStep e s = .next t) : s.WaitsOn t := by
  rcases serialStep_cases h with rfl | ⟨_, ph, _, rfl⟩ | ⟨_, ph, _, ⟨b, _, _, rfl⟩ | ⟨_, rfl⟩ | ⟨_, rfl⟩⟩
  · exact .refl waiting
  · exact ⟨waiting, rfl, .inl rfl, fun st => by simp [st] at ph⟩
  all_goals exact ⟨waiting, rfl, .inl rfl, fun st => by simp [st] at ph⟩

/-- Only the wake step, where it is enabled, and the reset line end a wait: the port is closed (R110), and the producer never
touches `CONS_STATE`. -/
theorem takeTurn_waitsOn {u : Turn} {s t : State} (waiting : s.consState = .waiting) (h : takeTurn u s = .next t)
    (wake : u = .wake → ¬ s.wakeEnabled = true) (reset : u ≠ .reset) : s.WaitsOn t := by
  cases u with
  | command w =>
    cases (commandStep_of_closed w (by simp [State.portOpen, waiting])).symm.trans h
    exact .refl waiting
  | wake =>
    cases (wakeStep_of_disabled (wake rfl)).symm.trans h
    exact .refl waiting
  | produce => exact produceStep_waitsOn waiting h
  | serial e => exact serialStep_waitsOn waiting h
  | read a =>
    obtain ⟨v, d, e⟩ := readStep_eq a s
    cases e.symm.trans h
    exact ⟨waiting, rfl, .inl rfl, id⟩
  | reset => exact absurd rfl reset

/-! ## No post, no wake -/

/-- A consumer waits, the producer is stopped, no post is outstanding, and the reset line stays quiet. -/
structure State.Abandoned (s : State) : Prop where
  waiting : s.consState = .waiting
  unposted : s.event = false
  stopped : s.prodPhase = .stopped
  noReset : ∀ u ∈ s.pending, u ≠ Turn.reset

theorem step_abandoned (s t : State) (hs : s.Abandoned) (h : step s = .next t) : t.Abandoned := by
  obtain ⟨waiting, unposted, stopped, noReset⟩ := hs
  rcases step_cases h with ⟨_, rfl⟩ | ⟨u, rest, offered, turn⟩
  · exact ⟨waiting, unposted, stopped, noReset⟩
  · rw [offered, List.forall_mem_cons] at noReset
    obtain ⟨notReset, noReset⟩ := noReset
    have disabled : ¬ ({ s with pending := rest } : State).wakeEnabled = true := by simp [State.wakeEnabled, unposted]
    have on := takeTurn_waitsOn (s := { s with pending := rest }) waiting turn (fun _ => disabled) notReset
    refine ⟨on.waiting, ?_, on.stopped stopped, ?_⟩
    · rcases on.event with same | ⟨_, runs⟩
      · exact same.trans unposted
      · exact absurd stopped runs
    · rwa [takeTurn_pending turn]

/-- Settles O49: an abandoned consumer is an invariant of every step. -/
theorem waitsUntilResetWithoutAPost : Obligations.WaitsUntilResetWithoutAPost := by
  intro k s t waiting unposted stopped noReset h
  obtain ⟨waits, quiet, still, _⟩ := run_keeps step_abandoned ⟨waiting, unposted, stopped, noReset⟩ h
  exact ⟨waits, quiet, still⟩

/-! ## A post leads to a wake -/

/-- An enabled wake step stays enabled until it is taken (R124). -/
theorem takeTurn_wakeEnabled {u : Turn} {s t : State} (enabled : s.wakeEnabled = true) (h : takeTurn u s = .next t)
    (wake : u ≠ .wake) (reset : u ≠ .reset) : t.wakeEnabled = true := by
  obtain ⟨waiting, posted, running⟩ := s.wakeEnabled_iff.1 enabled
  have on := takeTurn_waitsOn waiting h (fun e => absurd e wake) reset
  refine t.wakeEnabled_iff.2 ⟨on.waiting, ?_, on.faulted.trans running⟩
  rcases on.event with same | ⟨event, _⟩
  · exact same.trans posted
  · exact event

theorem wakeStep_holding {s t : State} (enabled : s.wakeEnabled = true) (h : wakeStep s = .next t) :
    t.consState = .holding := by
  rcases wakeStep_cases h with ⟨disabled, _⟩ | ⟨_, _, rfl⟩
  · exact nomatch disabled.symm.trans enabled
  · rfl

/-- Settles O59: were no slot ever held, the wake step would stay enabled; then fairness takes it, and it holds the
slot. -/
theorem postedConsumerWakes : Obligations.PostedConsumerWakes := by
  intro turns r k execution quiet fair waiting posted running
  by_contra never
  have noWake (j : Nat) (le : k ≤ j) (enabled : (r j).wakeEnabled = true) : turns j ≠ .wake := fun wake => by
    have taken : takeTurn .wake (r j) = .next (r (j + 1)) := wake ▸ execution j
    exact never ⟨j + 1, Nat.lt_succ_of_le le, wakeStep_holding enabled taken⟩
  have enabled (j : Nat) (le : k ≤ j) : (r j).wakeEnabled = true := by
    induction j, le using Nat.le_induction with
    | base => exact (r k).wakeEnabled_iff.2 ⟨waiting, posted, running⟩
    | succ j le ih => exact takeTurn_wakeEnabled ih (execution j) (noWake j le ih) (quiet j)
  obtain ⟨j, le, wake⟩ := fair k enabled
  exact noWake j le (enabled j le) wake

/-! ## No wakeup is lost -/

theorem produceStep_of_commit {s : State} (running : s.faulted = false) (phase : s.prodPhase = .commit)
    (slot : s.wIdx.toNat < s.n.toNat) :
    produceStep s = .next { s.setValid s.wIdx.toNat 1 with
      wIdx := s.nextSlot s.wIdx, event := true, prodPhase := .check } := by
  rw [produceStep, if_neg (by simp [running]), phase]
  exact if_neg (by simpa using (s.slotExists_iff _).2 slot)

theorem produceStep_of_emptyMark {s : State} (running : s.faulted = false) (phase : s.prodPhase = .empty)
    (variant : s.config.variant = .a) (slot : s.wIdx.toNat < s.n.toNat) :
    produceStep s = .next { s.setValid s.wIdx.toNat 0 with event := true, prodPhase := .check } := by
  rw [produceStep, if_neg (by simp [running]), phase]
  simp only [producerEmpty, variant]
  exact if_neg (by simpa using (s.slotExists_iff _).2 slot)

/-- R154 at slot `R_IDX`: the slot is valid then, and an ACQUIRE returns it. -/
theorem commit_then_acquire {s t : State} (form : s.MemoryForm) (running : s.faulted = false)
    (configured : s.cfgDone = true) (slot : s.rIdx.toNat < s.n.toNat) (phase : s.prodPhase = .commit)
    (same : s.wIdx = s.rIdx) (idle : s.consState = .idle) (h : produceStep s = .next t) :
    t.validByte s.rIdx.toNat ≠ 0 ∧ ∃ u, exec .acquire t = .next u ∧ u.consState = .holding ∧ u.acqValid = true := by
  cases (produceStep_of_commit running phase (same ▸ slot)).symm.trans h
  have flag : (s.setValid s.wIdx.toNat 1).validByte s.rIdx.toNat ≠ 0 := by
    rw [State.validByte_setValid form.valid_wf, same, if_pos rfl]
    decide
  exact ⟨flag, _, execAcquire_of_valid configured idle slot flag, rfl, (State.isValid_iff _ _).2 flag⟩

/-- R156 at slot `R_IDX`: the slot is not valid then, and an ACQUIRE clears the mark's EVENT and waits (R122). -/
theorem emptyMark_then_acquire {s t : State} (form : s.MemoryForm) (running : s.faulted = false)
    (configured : s.cfgDone = true) (slot : s.rIdx.toNat < s.n.toNat) (phase : s.prodPhase = .empty)
    (variant : s.config.variant = .a) (same : s.wIdx = s.rIdx) (idle : s.consState = .idle)
    (h : produceStep s = .next t) : ∃ u, exec .acquire t = .next u ∧ u.consState = .waiting ∧ u.event = false := by
  cases (produceStep_of_emptyMark running phase variant (same ▸ slot)).symm.trans h
  have flag : (s.setValid s.wIdx.toNat 0).validByte s.rIdx.toNat = 0 := by
    rw [State.validByte_setValid form.valid_wf, same, if_pos rfl]
  exact ⟨_, execAcquire_of_invalid configured idle slot flag, rfl, rfl⟩

/-- A post, by COMMIT or by the empty mark of variant A, enables the wake step of a waiting consumer. -/
theorem post_enables_wake {s t : State} (running : s.faulted = false) (slot : s.wIdx.toNat < s.n.toNat)
    (posts : s.prodPhase = .commit ∨ (s.prodPhase = .empty ∧ s.config.variant = .a)) (waiting : s.consState = .waiting)
    (h : produceStep s = .next t) : t.wakeEnabled = true := by
  refine t.wakeEnabled_iff.2 ?_
  rcases posts with phase | ⟨phase, variant⟩
  · cases (produceStep_of_commit running phase slot).symm.trans h
    exact ⟨waiting, rfl, running⟩
  · cases (produceStep_of_emptyMark running phase variant slot).symm.trans h
    exact ⟨waiting, rfl, running⟩

/-- The producer takes away no flag but that of `W_IDX`, by the empty mark of variant A (R154, R156). -/
theorem produceStep_keeps_flag {s t : State} {i : BitVec 12} (form : s.MemoryForm) (h : produceStep s = .next t)
    (unmarked : ¬ (s.prodPhase = .empty ∧ s.config.variant = .a ∧ s.wIdx = i)) (flag : s.validByte i.toNat ≠ 0) :
    t.rIdx = s.rIdx ∧ t.validByte i.toNat ≠ 0 := by
  rcases produceStep_cases h with rfl | ⟨_, _, _, rfl⟩ | ⟨_, _, _, rfl⟩ | ⟨_, phase, variant, _, rfl⟩ | ⟨_, _, _, rfl⟩
  · exact ⟨rfl, flag⟩
  · rw [State.reportOverrun_eq]
    exact ⟨rfl, flag⟩
  · have set : (s.setValid s.wIdx.toNat 1).validByte i.toNat ≠ 0 := by
      rw [State.validByte_setValid form.valid_wf]
      split
      · decide
      · exact flag
    exact ⟨rfl, set⟩
  · have other : i.toNat ≠ s.wIdx.toNat := fun e => unmarked ⟨phase, variant, (BitVec.eq_of_toNat_eq e).symm⟩
    have kept : (s.setValid s.wIdx.toNat 0).validByte i.toNat ≠ 0 := by
      rwa [State.validByte_setValid form.valid_wf, if_neg other]
    exact ⟨rfl, kept⟩
  · exact ⟨rfl, flag⟩

theorem takeTurn_keeps_flag {u : Turn} {s t : State} {i : BitVec 12} (form : s.MemoryForm)
    (h : takeTurn u s = .next t) (command : ∀ w, u ≠ .command w) (reset : u ≠ .reset)
    (unmarked : ¬ (s.prodPhase = .empty ∧ s.config.variant = .a ∧ s.wIdx = i)) (flag : s.validByte i.toNat ≠ 0) :
    t.rIdx = s.rIdx ∧ t.validByte i.toNat ≠ 0 := by
  cases u with
  | command w => exact absurd rfl (command w)
  | wake => rcases wakeStep_cases h with ⟨_, rfl⟩ | ⟨_, _, rfl⟩ <;> exact ⟨rfl, flag⟩
  | produce => exact produceStep_keeps_flag form h unmarked flag
  | serial e =>
    rcases serialStep_cases h with rfl | ⟨_, _, _, rfl⟩ | ⟨_, _, _, ⟨b, _, _, rfl⟩ | ⟨_, rfl⟩ | ⟨_, rfl⟩⟩ <;>
      exact ⟨rfl, flag⟩
  | read a =>
    obtain ⟨v, d, e⟩ := readStep_eq a s
    cases e.symm.trans h
    exact ⟨rfl, flag⟩
  | reset => exact absurd rfl reset

/-- Settles O47: the producer's turn, then the ACQUIRE it meets; and any other turn keeps flag and index. -/
theorem noLostWakeup : Obligations.NoLostWakeup := by
  refine ⟨fun s t rest form running configured wSlot rSlot offered h => ?_,
    fun s t u rest form offered h command reset =>
      takeTurn_keeps_flag (s := { s with pending := rest }) form ((step_of_pending offered).symm.trans h) command reset⟩
  have turn : produceStep { s with pending := rest } = .next t := (step_of_pending offered).symm.trans h
  exact ⟨fun phase same idle =>
      commit_then_acquire (s := { s with pending := rest }) form running configured rSlot phase same idle turn,
    fun posts waiting => post_enables_wake (s := { s with pending := rest }) running wSlot posts waiting turn,
    fun phase variant same idle =>
      emptyMark_then_acquire (s := { s with pending := rest }) form running configured rSlot phase variant same idle
        turn⟩

end Sys2Proof.Machine

/-! Proofs of the family 41_producer: the rule of each phase of the producer, one equation per turn (O40 to O45); a
whole read, from CHECK to COMMIT (O46); nothing is published before QUIET (O48); and each phase that is to end does
(O60). -/

namespace Sys2Proof.Machine

/-! ## DRAIN and RESYNC -/

theorem serialStep_of_quietPhase (e : SerialInput) {s : State} (running : s.faulted = false)
    (phase : s.prodPhase = .drain ∨ s.prodPhase = .resync) : serialStep e s = quietInput e s := by
  rw [serialStep, if_neg (by simp [running])]
  rcases phase with phase | phase <;> rw [phase]

/-- Settles O40: the two phases share their one rule, which looks at the input alone. -/
theorem drainAndResyncWaitForQuiet : Obligations.DrainAndResyncWaitForQuiet := by
  intro s e rest running phase offered
  have turn : step s = quietInput e { s with pending := rest } :=
    (step_of_pending offered).trans (serialStep_of_quietPhase e running phase)
  refine ⟨fun discarded => ?_, fun quiet => ?_⟩
  · rcases discarded with ⟨b, rfl⟩ | rfl <;> exact turn
  · subst quiet
    exact turn

/-! ## CHECK -/

theorem produceStep_of_check {s : State} (running : s.faulted = false) (phase : s.prodPhase = .check)
    (slot : s.wIdx.toNat < s.n.toNat) :
    produceStep s = .next { s.reportOverrun with rdCount := 0, prodPhase := .read } := by
  rw [produceStep, if_neg (by simp [running]), phase]
  exact if_neg (by simpa using (s.slotExists_iff _).2 slot)

/-- `OVR_COUNT` stays at its largest value once there (R30). -/
theorem overrunCount_toNat (c : BitVec 32) : (overrunCount c).toNat = min (c.toNat + 1) 0xFFFFFFFF := by
  unfold overrunCount
  split
  · next full => rw [full]; rfl
  · next free =>
    have below : c.toNat ≠ 0xFFFFFFFF := fun e => free (BitVec.eq_of_toNat_eq e)
    bv_omega

/-- Settles O41: the flag decides whether the overrun is reported, and READ comes next in both cases. -/
theorem checkReportsOverruns : Obligations.CheckReportsOverruns := by
  intro s rest running phase offered slot
  have turn := (step_of_pending offered).trans
    (produceStep_of_check (s := { s with pending := rest }) running phase slot)
  refine ⟨fun free => ?_, fun valid => ⟨_, turn, ?_⟩⟩
  · have unflagged := (State.isValid_eq_false_iff { s with pending := rest } _).2 free
    rw [turn, State.reportOverrun, if_neg (by simp [unflagged])]
  · have flagged := (State.isValid_iff { s with pending := rest } _).2 valid
    rw [State.reportOverrun, if_pos flagged]
    exact ⟨overrunCount_toNat s.ovrCount, rfl⟩

/-! ## READ -/

section Read

variable {s : State} (running : s.faulted = false) (phase : s.prodPhase = .read) (room : s.rdCount.toNat < s.p.toNat)

include running phase

theorem serialStep_of_read (e : SerialInput) : serialStep e s = readInput e s := by
  rw [serialStep, if_neg (by simp [running]), phase]

include room

theorem serialStep_byte_of_read (b : Byte) : serialStep (.byte b) s = readByte b s :=
  (serialStep_of_read running phase _).trans (if_pos (BitVec.lt_def.2 room))

theorem serialStep_timeout_of_read : serialStep .timeout s = readTimeout s :=
  (serialStep_of_read running phase _).trans (if_pos (BitVec.lt_def.2 room))

theorem serialStep_error_of_read : serialStep .error s = readError s :=
  (serialStep_of_read running phase _).trans (if_pos (BitVec.lt_def.2 room))

end Read

theorem readByte_of_slot (b : Byte) {s : State} (slot : s.wIdx.toNat < s.n.toNat) :
    readByte b s = .next (s.storeByte b) :=
  if_neg (by simpa using (s.slotExists_iff _).2 slot)

theorem State.storeByte_arenaRead (s : State) (b : Byte) (a : Nat) :
    (s.storeByte b).arenaRead a = if a = s.wIdx.toNat * s.p.toNat + s.rdCount.toNat then some b else s.arenaRead a :=
  s.arenaRead_arenaWrite _ a b

theorem State.storeByte_rdCount_toNat {s : State} (b : Byte) (room : s.rdCount.toNat < s.p.toNat) :
    (s.storeByte b).rdCount.toNat = s.rdCount.toNat + 1 := by
  rw [State.storeByte_rdCount]
  bv_omega

/-- The count reaches P exactly with the slot's last byte (R150). -/
theorem State.rdCount_succ_eq_iff {s : State} (room : s.rdCount.toNat < s.p.toNat) :
    s.rdCount + 1 = s.p ↔ s.rdCount.toNat + 1 = s.p.toNat := by
  bv_omega

/-- A byte offered in READ is stored, and its turn is gone. -/
theorem step_byte_of_read {s : State} {b : Byte} {rest : List Turn} (running : s.faulted = false)
    (phase : s.prodPhase = .read) (room : s.rdCount.toNat < s.p.toNat) (slot : s.wIdx.toNat < s.n.toNat)
    (offered : s.pending = .serial (.byte b) :: rest) :
    step s = .next (({ s with pending := rest } : State).storeByte b) :=
  have stores := serialStep_byte_of_read (s := { s with pending := rest }) running phase room b
  (step_of_pending offered).trans (stores.trans (readByte_of_slot b slot))

/-- Settles O42: the rules of the arena write and of the count, and `ACQ_DIRTY` read as a condition. -/
theorem readStoresOneByte : Obligations.ReadStoresOneByte := by
  intro s b rest running phase room slot offered
  have dirty : (s.acqDirty || (s.consState == .holding && s.wIdx == s.rIdx)) =
      if s.consState = .holding ∧ s.wIdx = s.rIdx then true else s.acqDirty := by
    split <;> simp_all
  refine ⟨_, step_byte_of_read running phase room slot offered, State.storeByte_arenaRead { s with pending := rest } b,
    State.storeByte_rdCount_toNat (s := { s with pending := rest }) b room, ?_⟩
  simp only [← dirty, ← State.rdCount_succ_eq_iff room, ← phase]
  rfl

/-- Settles O43: neither end looks at or writes anything but the phase and the count. -/
theorem earlyEndOfARead : Obligations.EarlyEndOfARead := by
  intro s e rest running phase room offered
  have timeout := serialStep_timeout_of_read (s := { s with pending := rest }) running phase room
  have error := serialStep_error_of_read (s := { s with pending := rest }) running phase room
  refine ⟨fun pure noByte => ?_, ?_⟩
  · subst pure
    rw [step_of_pending offered, takeTurn, timeout, readTimeout, if_pos noByte]
  · rintro (⟨rfl, begun⟩ | rfl)
    · rw [step_of_pending offered, takeTurn, timeout, readTimeout, if_neg begun]
    · exact (step_of_pending offered).trans error

/-! ## COMMIT and EMPTY -/

/-- Settles O44: the flag's write, and the index modulo N. -/
theorem commitPublishesTheSlot : Obligations.CommitPublishesTheSlot := by
  intro s rest form running phase slot offered
  have turn := (step_of_pending offered).trans
    (produceStep_of_commit (s := { s with pending := rest }) running phase slot)
  exact ⟨_, turn, fun i => State.validByte_setValid form.valid_wf s.wIdx.toNat i 1,
    State.nextSlot_toNat s.wIdx (Nat.zero_lt_of_lt slot), rfl⟩

theorem produceStep_of_silentEmpty {s : State} (running : s.faulted = false) (phase : s.prodPhase = .empty)
    (variant : s.config.variant = .b) : produceStep s = .next { s with prodPhase := .check } := by
  rw [produceStep, if_neg (by simp [running]), phase]
  simp only [producerEmpty, variant]

/-- Settles O45, variant by variant. -/
theorem emptyMarksOnlyInVariantA : Obligations.EmptyMarksOnlyInVariantA := by
  refine fun s rest form running phase offered => ⟨fun variant slot => ?_, fun variant => ?_⟩
  · have turn := (step_of_pending offered).trans
      (produceStep_of_emptyMark (s := { s with pending := rest }) running phase variant slot)
    exact ⟨_, turn, fun i => State.validByte_setValid form.valid_wf s.wIdx.toNat i 0, rfl⟩
  · exact (step_of_pending offered).trans (produceStep_of_silentEmpty running phase variant)

/-! ## A whole read -/

theorem run_succ_of_step {s u : State} (first : step s = .next u) (k : Nat) :
    Host.Core.run Sys2Proof.core (k + 1) s = Host.Core.run Sys2Proof.core k u := by
  have first' : Sys2Proof.core.step s = .next u := first
  simp only [Host.Core.run, first']

theorem run_add {j : Nat} {s u : State} (first : Host.Core.run Sys2Proof.core j s = .next u) (k : Nat) :
    Host.Core.run Sys2Proof.core (j + k) s = Host.Core.run Sys2Proof.core k u := by
  induction j generalizing s with
  | zero => cases first; rw [Nat.zero_add]
  | succ j ih =>
    obtain ⟨v, one, rest⟩ := run_succ_cases first
    rw [Nat.succ_add]
    exact (run_succ_of_step one _).trans (ih rest)

/-- The byte steps of a read, one after the other. -/
def State.storeBytes (s : State) (bytes : List Byte) : State := bytes.foldl State.storeByte s

theorem State.storeBytes_cons (s : State) (b : Byte) (bytes : List Byte) :
    s.storeBytes (b :: bytes) = (s.storeByte b).storeBytes bytes := rfl

/-- What byte steps write (R150). -/
theorem State.storeBytes_frame (s : State) (bytes : List Byte) :
    s.storeBytes bytes = { s with
      arena := (s.storeBytes bytes).arena, rdCount := (s.storeBytes bytes).rdCount
      acqDirty := (s.storeBytes bytes).acqDirty, prodPhase := (s.storeBytes bytes).prodPhase } := by
  induction bytes generalizing s with
  | nil => rfl
  | cons b bytes ih => exact ih (s.storeByte b)

/-- The producer reads while the slot has room, and is to commit once it is full. -/
def State.InRead (s : State) : Prop := s.prodPhase = if s.rdCount.toNat < s.p.toNat then .read else .commit

theorem State.InRead.reading {s : State} (hs : s.InRead) (room : s.rdCount.toNat < s.p.toNat) : s.prodPhase = .read :=
  hs.trans (if_pos room)

theorem State.InRead.full {s : State} (hs : s.InRead) (full : s.rdCount.toNat = s.p.toNat) : s.prodPhase = .commit :=
  hs.trans (if_neg full.not_lt)

theorem State.InRead.storeByte {s : State} (hs : s.InRead) (b : Byte) (room : s.rdCount.toNat < s.p.toNat) :
    (s.storeByte b).InRead := by
  rw [State.InRead, State.storeByte_prodPhase, State.storeByte_rdCount_toNat b room, State.storeByte_p,
    hs.reading room]
  simp only [State.rdCount_succ_eq_iff room]
  rcases Nat.eq_or_lt_of_le room with full | more
  · rw [if_pos full, if_neg full.not_lt]
  · rw [if_neg more.ne, if_pos more]

/-- `t` is `s` after the byte steps of `bytes`: they stand in the slot from its byte `RD_COUNT` on, in order. -/
structure State.FilledTo (s t : State) (bytes : List Byte) : Prop where
  inRead : t.InRead
  count : t.rdCount.toNat = s.rdCount.toNat + bytes.length
  stored : ∀ (k : Nat) (h : k < bytes.length),
    t.arenaRead (s.wIdx.toNat * s.p.toNat + s.rdCount.toNat + k) = some bytes[k]
  others : ∀ a, a < s.wIdx.toNat * s.p.toNat + s.rdCount.toNat ∨
    s.wIdx.toNat * s.p.toNat + s.rdCount.toNat + bytes.length ≤ a → t.arenaRead a = s.arenaRead a

/-- The first byte goes in front of what the others fill; they do not reach back to it. -/
theorem State.FilledTo.cons {s t : State} {b : Byte} {bytes : List Byte} (room : s.rdCount.toNat < s.p.toNat)
    (h : (s.storeByte b).FilledTo t bytes) : s.FilledTo t (b :: bytes) := by
  obtain ⟨inRead, count, stored, others⟩ := h
  simp only [State.storeByte_rdCount_toNat b room, State.storeByte_wIdx, State.storeByte_p,
    State.storeByte_arenaRead] at count stored others
  refine ⟨inRead, ?_, fun k h => ?_, fun a outside => ?_⟩
  · rw [count, List.length_cons, Nat.add_assoc, Nat.add_comm 1]
  · cases k with
    | zero => exact (others _ (by omega)).trans (if_pos rfl)
    | succ k =>
      rw [List.getElem_cons_succ, ← stored k (Nat.lt_of_succ_lt_succ h)]
      congr 1
      omega
  · rw [List.length_cons] at outside
    rw [others a (by omega), if_neg (by omega)]

theorem State.storeBytes_filled (bytes : List Byte) {s : State} (hs : s.InRead)
    (fits : s.rdCount.toNat + bytes.length ≤ s.p.toNat) : s.FilledTo (s.storeBytes bytes) bytes := by
  induction bytes generalizing s with
  | nil => exact ⟨hs, rfl, nofun, fun _ _ => rfl⟩
  | cons b bytes ih =>
    rw [List.length_cons] at fits
    have room : s.rdCount.toNat < s.p.toNat := by omega
    refine .cons room (ih (hs.storeByte b room) ?_)
    rw [State.storeByte_rdCount_toNat b room, State.storeByte_p]
    omega

/-- The turns of the bytes, taken one by one, are the byte steps. -/
theorem run_bytes (bytes : List Byte) {rest : List Turn} {s : State} (running : s.faulted = false) (hs : s.InRead)
    (slot : s.wIdx.toNat < s.n.toNat) (fits : s.rdCount.toNat + bytes.length ≤ s.p.toNat)
    (offered : s.pending = bytes.map (fun b => Turn.serial (.byte b)) ++ rest) :
    Host.Core.run Sys2Proof.core bytes.length s = .next (({ s with pending := rest } : State).storeBytes bytes) := by
  induction bytes generalizing s with
  | nil => cases offered; rfl
  | cons b bytes ih =>
    rw [List.length_cons] at fits
    have room : s.rdCount.toNat < s.p.toNat := by omega
    refine (run_succ_of_step (step_byte_of_read running (hs.reading room) room slot offered) _).trans ?_
    refine ih running (hs.storeByte b room) slot ?_ rfl
    have next := State.storeByte_rdCount_toNat b room
    exact (by omega : (s.storeByte b).rdCount.toNat + bytes.length ≤ s.p.toNat)

theorem State.MemoryForm.storeBytes {s : State} (hm : s.MemoryForm) (bytes : List Byte) :
    (s.storeBytes bytes).MemoryForm := by
  induction bytes generalizing s with
  | nil => exact hm
  | cons b bytes ih => exact ih (hm.storeByte b)

/-- From `s` to `t` the slot `W_IDX` names in `s` got `bytes` and was published (R150, R154); no other byte or flag
changed. -/
structure State.PublishesSlot (s t : State) (bytes : List Byte) : Prop where
  stored : ∀ (k : Nat) (h : k < bytes.length), t.arenaRead (s.wIdx.toNat * s.p.toNat + k) = some bytes[k]
  others : ∀ a, (a < s.wIdx.toNat * s.p.toNat ∨ s.wIdx.toNat * s.p.toNat + s.p.toNat ≤ a) →
    t.arenaRead a = s.arenaRead a
  flags : ∀ i, t.validByte i = if i = s.wIdx.toNat then 1 else s.validByte i
  index : t.wIdx.toNat = (s.wIdx.toNat + 1) % s.n.toNat
  posted : t.event = true
  phase : t.prodPhase = .check

section WholeRead

variable {s : State} {bytes : List Byte} {rest : List Turn} (form : s.MemoryForm) (running : s.faulted = false)
  (reading : s.prodPhase = .read) (start : s.rdCount.toNat = 0) (slot : s.wIdx.toNat < s.n.toNat)
  (length : bytes.length = s.p.toNat) (pos : 0 < s.p.toNat)

include form running reading start slot length pos

theorem commit_of_filled (offered : s.pending = .produce :: rest) :
    ∃ t, step (s.storeBytes bytes) = .next t ∧ s.PublishesSlot t bytes ∧ t.pending = rest := by
  have inRead : s.InRead := reading.trans (if_pos (start ▸ pos)).symm
  obtain ⟨filled, count, stored, others⟩ := State.storeBytes_filled bytes inRead (by omega)
  rw [start, Nat.add_zero] at stored others
  rw [length] at others
  have frame := s.storeBytes_frame bytes
  have commit := filled.full (by rw [count, frame]; exact start ▸ length ▸ Nat.zero_add _)
  obtain ⟨t, last, flags, index, same⟩ := commitPublishesTheSlot (s.storeBytes bytes) rest (form.storeBytes bytes)
    (frame ▸ running) commit (frame ▸ slot) (frame ▸ offered)
  have arena (a : Nat) := State.arenaRead_congr (congrArg State.arena same) a
  rw [frame] at flags index
  exact ⟨t, last,
    { stored := fun k h => (arena _).trans (stored k h)
      others := fun a outside => (arena a).trans (others a outside)
      flags := flags
      index := index
      posted := congrArg State.event same
      phase := congrArg State.prodPhase same },
    congrArg State.pending same⟩

/-- The turns of a whole read after CHECK. -/
theorem run_bytes_then_commit
    (offered : s.pending = bytes.map (fun b => Turn.serial (.byte b)) ++ .produce :: rest) :
    ∃ t, Host.Core.run Sys2Proof.core (bytes.length + 1) s = .next t ∧ s.PublishesSlot t bytes ∧ t.pending = rest := by
  have inRead : s.InRead := reading.trans (if_pos (start ▸ pos)).symm
  have stores := run_bytes bytes running inRead slot (by omega) offered
  obtain ⟨t, last, published, pending⟩ :=
    commit_of_filled (s := { s with pending := .produce :: rest }) form running reading start slot length pos rfl
  exact ⟨t, (run_add stores 1).trans (run_succ_of_step last 0),
    ⟨published.stored, published.others, published.flags, published.index, published.posted, published.phase⟩, pending⟩

end WholeRead

/-- Settles O46: CHECK writes neither byte space, and READ begins with no byte read. -/
theorem wholeReadFillsTheSlot : Obligations.WholeReadFillsTheSlot := by
  intro s bytes rest form running phase slot length pos offered
  have check := (step_of_pending offered).trans (produceStep_of_check (s := { s with pending := _ }) running phase slot)
  rw [State.reportOverrun_eq] at check
  obtain ⟨t, run, ⟨stored, others, flags, index, posted, phase⟩, pending⟩ := run_bytes_then_commit (s := { s with
    pending := bytes.map (fun b => Turn.serial (.byte b)) ++ .produce :: rest, ovr := _, ovrCount := _
    rdCount := 0, prodPhase := .read }) form running rfl rfl slot length pos rfl
  exact ⟨t, (run_succ_of_step check _).trans run, stored, others, flags, index, posted, phase, pending⟩

/-! ## Nothing before QUIET -/

/-- Whatever is valid or stored in `t` is so in `s`. -/
structure State.AddsNothing (s t : State) : Prop where
  flags : ∀ i, t.validByte i ≠ 0 → s.validByte i ≠ 0
  bytes : ∀ a b, t.arenaRead a = some b → s.arenaRead a = some b

theorem State.AddsNothing.of_eq {s t : State} (valid : t.valid = s.valid) (arena : t.arena = s.arena) :
    s.AddsNothing t :=
  ⟨fun i set => State.validByte_congr valid i ▸ set, fun a _ byte => (State.arenaRead_congr arena a).symm.trans byte⟩

theorem State.AddsNothing.trans {s t u : State} (first : s.AddsNothing t) (second : t.AddsNothing u) :
    s.AddsNothing u :=
  ⟨fun i set => first.flags i (second.flags i set), fun a b byte => first.bytes a b (second.bytes a b byte)⟩

/-- Two empty byte spaces, as CFG and the reset line leave them. -/
theorem State.AddsNothing.of_empty (s : State) {t : State} (valid : t.valid = []) (arena : t.arena = []) :
    s.AddsNothing t where
  flags i set := by simp [State.validByte, valid, unlistedFlag] at set
  bytes a b byte := by simp [State.arenaRead, arena] at byte

theorem State.AddsNothing.clearFlag {s : State} (form : s.MemoryForm) (i : Nat) : s.AddsNothing (s.setValid i 0) where
  flags j set := by
    rw [State.validByte_setValid form.valid_wf] at set
    split at set
    · exact absurd rfl set
    · exact set
  bytes _ _ byte := byte

/-- A command empties both spaces (CFG), clears a flag (RELEASE), or writes neither. -/
theorem exec_addsNothing {i : Instr} {s t : State} (form : s.MemoryForm) (h : exec i s = .next t) :
    s.AddsNothing t := by
  cases i with
  | cfg n p =>
    rcases execCfg_cases h with ⟨_, rfl⟩ | ⟨_, _, _, rfl⟩ | ⟨_, _, _, rfl⟩
    · exact .of_eq rfl rfl
    · exact .of_eq rfl rfl
    · exact .of_empty s rfl rfl
  | release =>
    rcases execRelease_cases h with ⟨_, rfl⟩ | ⟨_, _, rfl⟩ | ⟨_, _, _, rfl⟩
    · exact .of_eq rfl rfl
    · exact .of_eq rfl rfl
    · rcases s.releaseVariant_cases with ⟨e, _⟩ | ⟨e, _⟩ <;> rw [e]
      · exact (State.AddsNothing.clearFlag form s.rIdx.toNat).trans (.of_eq rfl rfl)
      · exact .of_eq rfl rfl
  | _ =>
    obtain ⟨arena, _⟩ := (exec_frame h).ring nofun
    obtain ⟨valid, _⟩ := (exec_frame h).flags nofun nofun
    exact .of_eq valid arena

/-- The phases that nothing but QUIET or START leads out of (R144, R158). -/
def State.AwaitsQuiet (s : State) : Prop := s.prodPhase = .resync ∨ s.prodPhase = .drain ∨ s.prodPhase = .stopped

theorem State.AwaitsQuiet.congr {s t : State} (hs : s.AwaitsQuiet) (phase : t.prodPhase = s.prodPhase) :
    t.AwaitsQuiet := by
  rwa [State.AwaitsQuiet, phase]

/-- A command leaves the phase, or stops the producer, or starts it into DRAIN (R118, R120). -/
theorem exec_awaitsQuiet {i : Instr} {s t : State} (hs : s.AwaitsQuiet) (h : exec i s = .next t) : t.AwaitsQuiet := by
  rcases exec_producer_cases h with ⟨phase, _⟩ | ⟨_, stop, _⟩ | ⟨_, _, start, _⟩ | ⟨_, _, stop, _⟩
  · exact hs.congr phase
  · exact .inr (.inr stop)
  · exact .inr (.inl start)
  · exact .inr (.inr stop)

theorem produceStep_of_awaitsQuiet {s : State} (hs : s.AwaitsQuiet) : produceStep s = .next s := by
  rcases hs with phase | phase | phase <;> rw [produceStep, phase, ite_self]

theorem serialStep_of_awaitsQuiet {e : SerialInput} {s : State} (hs : s.AwaitsQuiet) (loud : e ≠ .quiet) :
    serialStep e s = .next s := by
  have discards : quietInput e s = .next s := by
    cases e with
    | quiet => exact absurd rfl loud
    | _ => rfl
  rcases hs with phase | phase | phase <;> rw [serialStep, phase]
  · rw [discards, ite_self]
  · rw [discards, ite_self]
  · rw [ite_self]

/-- Without a QUIET a turn keeps the producer waiting for one, and adds no flag and no byte. -/
theorem takeTurn_awaitsQuiet {u : Turn} {s t : State} (form : s.MemoryForm) (hs : s.AwaitsQuiet)
    (loud : u ≠ .serial .quiet) (h : takeTurn u s = .next t) : t.AwaitsQuiet ∧ s.AddsNothing t := by
  cases u with
  | command w =>
    rcases commandStep_cases h with ⟨_, rfl⟩ | ⟨_, i, _, h⟩ | ⟨_, _, _, rfl⟩
    · exact ⟨hs, .of_eq rfl rfl⟩
    · exact ⟨exec_awaitsQuiet hs h, exec_addsNothing form h⟩
    · exact ⟨hs, .of_eq rfl rfl⟩
  | wake => rcases wakeStep_cases h with ⟨_, rfl⟩ | ⟨_, _, rfl⟩ <;> exact ⟨hs, .of_eq rfl rfl⟩
  | produce =>
    cases (produceStep_of_awaitsQuiet hs).symm.trans h
    exact ⟨hs, .of_eq rfl rfl⟩
  | serial e =>
    cases (serialStep_of_awaitsQuiet hs fun quiet => loud (congrArg Turn.serial quiet)).symm.trans h
    exact ⟨hs, .of_eq rfl rfl⟩
  | read a =>
    obtain ⟨v, d, e⟩ := readStep_eq a s
    cases e.symm.trans h
    exact ⟨hs, .of_eq rfl rfl⟩
  | reset => cases h; exact ⟨.inr (.inr rfl), .of_empty s rfl rfl⟩

/-- What holds along a run from `s` without a QUIET: the producer still waits for one, none is offered, and nothing was
added. -/
structure State.UnpublishedSince (s t : State) : Prop where
  form : t.MemoryForm
  awaits : t.AwaitsQuiet
  noQuiet : ∀ u ∈ t.pending, u ≠ Turn.serial .quiet
  nothing : s.AddsNothing t

theorem step_unpublishedSince {s t u : State} (ht : s.UnpublishedSince t) (h : step t = .next u) :
    s.UnpublishedSince u := by
  obtain ⟨form, awaits, noQuiet, nothing⟩ := ht
  have formed := stepKeepsTheMemoryForm t u form h
  rcases step_cases h with ⟨_, rfl⟩ | ⟨turn, rest, offered, taken⟩
  · exact ⟨form, awaits, noQuiet, nothing⟩
  · rw [offered, List.forall_mem_cons] at noQuiet
    obtain ⟨loud, noQuiet⟩ := noQuiet
    obtain ⟨awaits, added⟩ := takeTurn_awaitsQuiet (s := { t with pending := rest }) form awaits loud taken
    refine ⟨formed, awaits, ?_, nothing.trans ⟨added.flags, added.bytes⟩⟩
    rwa [takeTurn_pending taken]

/-- Settles O48: that nothing was added since the start is an invariant of every step without a QUIET. -/
theorem nothingIsPublishedBeforeQuiet : Obligations.NothingIsPublishedBeforeQuiet := by
  intro k s t form awaits noQuiet h
  have start : s.UnpublishedSince s := ⟨form, awaits, noQuiet, .of_eq rfl rfl⟩
  obtain ⟨_, _, _, flags, bytes⟩ :=
    run_keeps (P := s.UnpublishedSince) (fun _ _ => step_unpublishedSince) start h
  exact ⟨flags, bytes⟩

/-! ## Each phase ends -/

/-- An internal step that is enabled leaves its phase (R146, R154, R156, R157). -/
theorem produceStep_leaves_phase {s t : State} (enabled : s.internalEnabled = true) (h : produceStep s = .next t) :
    t.prodPhase ≠ s.prodPhase := by
  obtain ⟨running, phase⟩ :
      s.faulted = false ∧ ((s.prodPhase = .check ∨ s.prodPhase = .commit) ∨ s.prodPhase = .empty) := by
    simpa [State.internalEnabled] using enabled
  rw [produceStep, if_neg (by simp [running])] at h
  rcases phase with (phase | phase) | phase <;> simp only [phase] at h ⊢
  · unfold producerCheck at h
    split at h <;> cases h
    exact nofun
  · unfold producerCommit at h
    split at h <;> cases h
    exact nofun
  · unfold producerEmpty at h
    split at h
    · split at h <;> cases h
      exact nofun
    · cases h
      exact nofun

/-- Were the phase never left and no fault taken, the internal step would stay enabled; fairness takes it. -/
theorem internal_phase_ends {turns : Nat → Turn} {r : Nat → State} {k : Nat} (execution : Execution turns r)
    (fair : InternalFair turns r) {phase : ProdPhase} (internal : phase = .check ∨ phase = .commit ∨ phase = .empty) :
    ∃ j, k ≤ j ∧ ((r j).prodPhase ≠ phase ∨ (r j).faulted = true) := by
  by_contra! never
  have enabled (j : Nat) (le : k ≤ j) : (r j).internalEnabled = true := by
    obtain ⟨stays, running⟩ := never j le
    simp [State.internalEnabled, running, stays, internal, or_assoc]
  obtain ⟨j, le, produce⟩ := fair k enabled
  have taken : produceStep (r j) = .next (r (j + 1)) := by
    have turn := execution j
    rwa [produce] at turn
  obtain ⟨here, _⟩ := never j le
  obtain ⟨next, _⟩ := never (j + 1) (Nat.le_succ_of_le le)
  exact produceStep_leaves_phase (enabled j le) taken (next.trans here.symm)

/-- The bytes a read has still to get. -/
def State.bytesLeft (s : State) : Nat := s.p.toNat - s.rdCount.toNat

theorem State.bytesLeft_pos (s : State) : 0 < s.bytesLeft ↔ s.rdCount.toNat < s.p.toNat := Nat.sub_pos_iff_lt

theorem State.bytesLeft_congr {s t : State} (size : t.p = s.p) (count : t.rdCount = s.rdCount) :
    t.bytesLeft = s.bytesLeft := by
  rw [State.bytesLeft, size, count, State.bytesLeft]

/-- No command but an accepted CFG writes the packet size, and CFG is accepted from a stopped producer only (R116). -/
theorem exec_keeps_size {i : Instr} {s t : State} (moving : s.prodPhase ≠ .stopped) (h : exec i s = .next t) :
    t.p = s.p := by
  cases i with
  | cfg n p =>
    rcases execCfg_cases h with ⟨_, rfl⟩ | ⟨_, _, _, rfl⟩ | ⟨stopped, _⟩
    · rfl
    · rfl
    · exact absurd stopped moving
  | _ =>
    obtain ⟨_, _, size, _⟩ := (exec_frame h).ring nofun
    exact size

/-- A command that leaves the producer in READ leaves the read as it was. -/
theorem exec_bytesLeft {i : Instr} {s t : State} (reading : s.prodPhase = .read) (stays : t.prodPhase = .read)
    (h : exec i s = .next t) : t.bytesLeft = s.bytesLeft := by
  refine State.bytesLeft_congr (exec_keeps_size (by simp [reading]) h) ?_
  rcases exec_producer_cases h with ⟨_, count⟩ | ⟨_, left, _⟩ | ⟨_, _, left, _⟩ | ⟨_, _, left, _⟩
  · exact count
  all_goals exact nomatch stays.symm.trans left

/-- A byte that leaves the producer in READ leaves room for another. -/
theorem State.storeByte_bytesLeft {s : State} {b : Byte} (room : 0 < s.bytesLeft)
    (stays : (s.storeByte b).prodPhase = .read) :
    (s.storeByte b).bytesLeft + 1 = s.bytesLeft ∧ 0 < (s.storeByte b).bytesLeft := by
  have lt := s.bytesLeft_pos.1 room
  have more : s.rdCount.toNat + 1 ≠ s.p.toNat := fun full => by
    rw [State.storeByte_prodPhase, if_pos ((State.rdCount_succ_eq_iff lt).2 full)] at stays
    cases stays
  simp only [State.bytesLeft, State.storeByte_rdCount_toNat b lt, State.storeByte_p]
  omega

/-- An input that leaves the producer in READ is a byte, or a QUIET that passes by (R141). -/
theorem serialStep_bytesLeft {e : SerialInput} {s t : State} (running : s.faulted = false)
    (reading : s.prodPhase = .read) (room : 0 < s.bytesLeft) (stays : t.prodPhase = .read)
    (h : serialStep e s = .next t) :
    t.bytesLeft + (Turn.serial e).feedsRead.toNat = s.bytesLeft ∧ 0 < t.bytesLeft := by
  have lt := s.bytesLeft_pos.1 room
  cases e with
  | byte b =>
    rw [serialStep_byte_of_read running reading lt, readByte] at h
    split at h <;> cases h
    exact State.storeByte_bytesLeft room stays
  | timeout =>
    cases (serialStep_timeout_of_read running reading lt).symm.trans h
    dsimp only at stays
    split at stays <;> cases stays
  | quiet =>
    rw [serialStep_of_read running reading, readInput, ite_self] at h
    cases h
    exact ⟨rfl, room⟩
  | error =>
    cases (serialStep_error_of_read running reading lt).symm.trans h
    cases stays

/-- A turn that leaves the producer in READ brings the read a byte nearer to its end if it feeds the read, and leaves it
where it is if not. -/
theorem takeTurn_bytesLeft {u : Turn} {s t : State} (running : s.faulted = false) (reading : s.prodPhase = .read)
    (room : 0 < s.bytesLeft) (stays : t.prodPhase = .read) (h : takeTurn u s = .next t) :
    t.bytesLeft + u.feedsRead.toNat = s.bytesLeft ∧ 0 < t.bytesLeft := by
  cases u with
  | command w =>
    have same : t.bytesLeft = s.bytesLeft := by
      rcases commandStep_cases h with ⟨_, rfl⟩ | ⟨_, i, _, h⟩ | ⟨_, _, _, rfl⟩
      · rfl
      · exact exec_bytesLeft reading stays h
      · rfl
    exact ⟨same, same ▸ room⟩
  | wake => rcases wakeStep_cases h with ⟨_, rfl⟩ | ⟨_, _, rfl⟩ <;> exact ⟨rfl, room⟩
  | produce =>
    rw [takeTurn, produceStep, reading, ite_self] at h
    cases h
    exact ⟨rfl, room⟩
  | serial e => exact serialStep_bytesLeft running reading room stays h
  | read a =>
    obtain ⟨v, d, e⟩ := readStep_eq a s
    cases e.symm.trans h
    exact ⟨rfl, room⟩
  | reset => cases h; cases stays

/-- As long as the producer stays in READ without a fault, its bytes left are counted down by the inputs alone. -/
theorem bytesLeft_of_reads {turns : Nat → Turn} {r : Nat → State} {k : Nat} (execution : Execution turns r)
    (reads : ∀ j, k ≤ j → (r j).prodPhase = .read ∧ (r j).faulted = false) (room : (r k).rdCount < (r k).p) (j : Nat)
    (le : k ≤ j) : (r (j + 1)).bytesLeft + (turns j).feedsRead.toNat = (r j).bytesLeft := by
  have turn (j : Nat) (le : k ≤ j) (room : 0 < (r j).bytesLeft) :=
    have ⟨reading, running⟩ := reads j le
    have ⟨stays, _⟩ := reads (j + 1) (Nat.le_succ_of_le le)
    takeTurn_bytesLeft running reading room stays (execution j)
  have room (j : Nat) (le : k ≤ j) : 0 < (r j).bytesLeft := by
    induction j, le using Nat.le_induction with
    | base => exact (r k).bytesLeft_pos.2 (BitVec.lt_def.1 room)
    | succ j le ih => exact (turn j le ih).2
  exact (turn j le (room j le)).1

/-- Were the read never ended and no fault taken, the bytes left would settle on a value, and the input that the
environment cannot withhold then would still count them down. -/
theorem read_ends {turns : Nat → Turn} {r : Nat → State} {k : Nat} (execution : Execution turns r)
    (fair : ReadFair turns r) (room : (r k).rdCount < (r k).p) :
    ∃ j, k ≤ j ∧ ((r j).prodPhase ≠ .read ∨ (r j).faulted = true) := by
  by_contra! never
  have reads (j : Nat) (le : k ≤ j) : (r j).prodPhase = .read ∧ (r j).faulted = false := by
    simpa using never j le
  have counts (n : Nat) : (r (n + 1 + k)).bytesLeft + (turns (n + k)).feedsRead.toNat = (r (n + k)).bytesLeft := by
    rw [Nat.succ_add]
    exact bytesLeft_of_reads execution reads room (n + k) (Nat.le_add_left k n)
  have shrinks : Antitone fun n => (r (n + k)).bytesLeft :=
    antitone_nat_of_succ_le fun n => Nat.le.intro (counts n)
  obtain ⟨n, settled⟩ := WellFoundedLT.antitone_chain_condition shrinks
  obtain ⟨i, le, feeds⟩ := fair (n + k) fun j le => reads j ((Nat.le_add_left k n).trans le)
  obtain ⟨m, rfl⟩ := Nat.exists_eq_add_of_le' ((Nat.le_add_left k n).trans le)
  have late : n ≤ m := Nat.le_of_add_le_add_right le
  have count := counts m
  rw [feeds, ← settled m late, ← settled (m + 1) (Nat.le_succ_of_le late)] at count
  exact Nat.succ_ne_self _ count

/-- Settles O60, the read and the internal phases apart. -/
theorem producerPhasesEnd : Obligations.ProducerPhasesEnd := fun _ _ _ execution =>
  ⟨fun fair ring reading => read_ends execution fair (ring.reading reading),
    fun fair _ internal _ => internal_phase_ends execution fair internal⟩

end Sys2Proof.Machine

/-! Proofs of the family 42_crc: CRC.BUILD and CRC.SEED (O22, O23); the range of a compute and its outcomes, one equation per
outcome for both traversals (O24 to O27), and the decoder's range (O30); the CRC step as eight linear division steps, from which
the round trip (O28) and the bitwise form (O29) follow. -/

namespace Sys2Proof.Machine

/-! ## CRC.BUILD and CRC.SEED -/

/-- Format K of R98, with its reserved field and its operand as numbers. -/
theorem decodeK_eq_ite (w : Word) (f : Half → Instr) :
    decodeK w f =
      if w.toNat / 2 ^ 16 % 2 ^ 12 = 0 then .ok (f (.ofNat 16 w.toNat)) else .error .reservedBits := by
  have operand : imm16Field w = .ofNat 16 w.toNat := BitVec.eq_of_toNat_eq (by rw [imm16Field_toNat, BitVec.toNat_ofNat])
  rw [decodeK, operand]
  exact if_congr (extractLsb'_eq_zero_iff w 16 12) rfl rfl

/-- Settles O22: the read port shows the new table, since BUILD has made it valid. -/
theorem crcBuildFollowsItsRule : Obligations.CrcBuildFollowsItsRule := by
  refine ⟨fun w opcode => ?_, fun poly s => ⟨_, rfl, fun i => ⟨rfl, ?_⟩, rfl⟩⟩
  · rw [decodeWord, opcodeField_toNat, opcode]
    exact decodeK_eq_ite w .crcBuild
  · rw [State.readPort_register (i := 256 + i.val) _ (by omega) (by omega), State.registerWord_crcTable]
    rfl

/-- Settles O23: SEED looks at nothing. -/
theorem crcSeedFollowsItsRule : Obligations.CrcSeedFollowsItsRule := by
  refine ⟨fun w opcode => ?_, fun _ _ => rfl⟩
  rw [decodeWord, opcodeField_toNat, opcode]
  exact decodeK_eq_ite w .crcSeed

/-! ## The range of a compute -/

/-- `a_k` of R174. -/
def rangeAddr (inv : Bool) (addr : Half) (k : Nat) : Nat := if inv then addr.toNat - k else addr.toNat + k

theorem rangeAddrs_eq_map (inv : Bool) (addr : Half) (len : BitVec 11) :
    rangeAddrs inv addr len = (List.range len.toNat).map (rangeAddr inv addr) := rfl

theorem mem_rangeAddrs {inv : Bool} {addr : Half} {len : BitVec 11} {a : Nat} :
    a ∈ rangeAddrs inv addr len ↔ ∃ k, k < len.toNat ∧ rangeAddr inv addr k = a := by
  simp only [rangeAddrs_eq_map, List.mem_map, List.mem_range]

theorem rangeLeaves_forward_iff {addr : Half} {len : BitVec 11} {size : Nat} :
    rangeLeaves false addr len size = true ↔ len ≠ 0 ∧ size < addr.toNat + len.toNat := by
  simp [rangeLeaves]

theorem rangeLeaves_backward_iff {addr : Half} {len : BitVec 11} {size : Nat} :
    rangeLeaves true addr len size = true ↔ len ≠ 0 ∧ (size ≤ addr.toNat ∨ addr.toNat + 1 < len.toNat) := by
  simp [rangeLeaves]

/-- An upward range that ends in use does not leave it. -/
theorem rangeLeaves_forward_of_fits {addr : Half} {len : BitVec 11} {size : Nat}
    (fits : len = 0 ∨ addr.toNat + len.toNat ≤ size) : rangeLeaves false addr len size = false := by
  rw [← Bool.not_eq_true, rangeLeaves_forward_iff]
  rintro ⟨nonempty, leaves⟩
  exact absurd (fits.resolve_left nonempty) (Nat.not_le_of_lt leaves)

/-- A downward range that starts in use and ends at address 0 or above does not leave it. -/
theorem rangeLeaves_backward_of_fits {addr : Half} {len : BitVec 11} {size : Nat}
    (fits : len = 0 ∨ (addr.toNat < size ∧ len.toNat ≤ addr.toNat + 1)) : rangeLeaves true addr len size = false := by
  rw [← Bool.not_eq_true, rangeLeaves_backward_iff]
  rintro ⟨nonempty, leaves⟩
  obtain ⟨start, stop⟩ := fits.resolve_left nonempty
  omega

/-- The bytes of a list of addresses are the bytes read there one by one (R63). -/
theorem State.arenaBytes_of_map {s : State} {as : List Nat} {bs : List Byte}
    (reads : as.map s.arenaRead = bs.map some) : s.arenaBytes as = some bs := by
  induction as generalizing bs with
  | nil =>
    cases bs with
    | nil => rfl
    | cons b bs => cases reads
  | cons a as ih =>
    cases bs with
    | nil => cases reads
    | cons b bs =>
      obtain ⟨head, tail⟩ := List.cons.inj reads
      simp only [State.arenaBytes, head, ih tail]

/-- The bytes of a range, read in its order (R174). -/
theorem State.arenaBytes_range {s : State} {inv : Bool} {addr : Half} {len : BitVec 11} {bytes : List Byte}
    (length : bytes.length = len.toNat)
    (reads : ∀ (k : Nat) (h : k < bytes.length), s.arenaRead (rangeAddr inv addr k) = some bytes[k]) :
    s.arenaBytes (rangeAddrs inv addr len) = some bytes := by
  refine State.arenaBytes_of_map (List.ext_getElem ?_ fun k _ lt => ?_)
  · simp only [rangeAddrs_eq_map, List.length_map, List.length_range, length]
  · rw [List.length_map] at lt
    simpa only [rangeAddrs_eq_map, List.getElem_map, List.getElem_range] using reads k lt

/-- The address lies in the slot that `W_IDX` names, the one a read fills (R43, R180). -/
def State.inFilledSlot (s : State) (a : Nat) : Prop :=
  s.wIdx.toNat * s.p.toNat ≤ a ∧ a < s.wIdx.toNat * s.p.toNat + s.p.toNat

theorem State.touchesFilling_range_iff {s : State} {inv : Bool} {addr : Half} {len : BitVec 11} :
    s.touchesFilling (rangeAddrs inv addr len) = true ↔
      s.prodPhase = .read ∧ ∃ k, k < len.toNat ∧ s.inFilledSlot (rangeAddr inv addr k) := by
  simp only [State.touchesFilling, Bool.and_eq_true, beq_iff_eq, List.any_eq_true, mem_rangeAddrs, decide_eq_true_iff]
  exact and_congr_right fun _ => ⟨fun ⟨_, ⟨k, lt, rfl⟩, slot⟩ => ⟨k, lt, slot⟩, fun ⟨k, lt, slot⟩ => ⟨_, ⟨k, lt, rfl⟩, slot⟩⟩

/-! ## The outcomes of a compute, for either traversal (R179) -/

section Compute

variable {inv : Bool} {addr : Half} {len : BitVec 11} (i : Instr) {s : State}

theorem computeCrc_of_unconfigured (unconfigured : s.cfgDone = false) :
    computeCrc inv addr len i s = raiseFault .notConfigured i s := by
  simp [computeCrc, unconfigured]

theorem computeCrc_of_unbuilt (configured : s.cfgDone = true) (unbuilt : s.crcTableValid = false) :
    computeCrc inv addr len i s = raiseFault .crcNoTable i s := by
  simp [computeCrc, configured, unbuilt]

theorem computeCrc_of_leaves (configured : s.cfgDone = true) (built : s.crcTableValid = true)
    (leaves : rangeLeaves inv addr len s.arenaSize = true) :
    computeCrc inv addr len i s = raiseFault .crcRange i s := by
  simp [computeCrc, configured, built, leaves]

theorem computeCrc_of_unwritten (configured : s.cfgDone = true) (built : s.crcTableValid = true)
    (stays : rangeLeaves inv addr len s.arenaSize = false)
    (unwritten : ∃ k, k < len.toNat ∧ s.written (rangeAddr inv addr k) = false) :
    computeCrc inv addr len i s = raiseFault .readUninit i s := by
  obtain ⟨k, lt, unwritten⟩ := unwritten
  have none_read : s.arenaBytes (rangeAddrs inv addr len) = none :=
    (s.arenaBytes_eq_none _).2 ⟨_, mem_rangeAddrs.2 ⟨k, lt, rfl⟩, unwritten⟩
  simp [computeCrc, configured, built, stays, none_read]

theorem computeCrc_of_bytes {bytes : List Byte} (configured : s.cfgDone = true) (built : s.crcTableValid = true)
    (stays : rangeLeaves inv addr len s.arenaSize = false)
    (reads : s.arenaBytes (rangeAddrs inv addr len) = some bytes) :
    computeCrc inv addr len i s = .next (s.computeOver (rangeAddrs inv addr len) bytes) := by
  simp [computeCrc, configured, built, stays, reads]

/-- R179 over a range that the producer is not filling. -/
theorem computeCrc_of_settled {bytes : List Byte} (configured : s.cfgDone = true) (built : s.crcTableValid = true)
    (stays : rangeLeaves inv addr len s.arenaSize = false) (length : bytes.length = len.toNat)
    (reads : ∀ (k : Nat) (h : k < bytes.length), s.arenaRead (rangeAddr inv addr k) = some bytes[k])
    (settled : s.prodPhase ≠ .read ∨ ∀ k, k < len.toNat → ¬ s.inFilledSlot (rangeAddr inv addr k)) :
    computeCrc inv addr len i s = .next { s with crcResult := crcRun s.crcTable s.crcSeed bytes } := by
  have untouched : ¬ s.touchesFilling (rangeAddrs inv addr len) = true := by
    rw [State.touchesFilling_range_iff]
    rintro ⟨reading, k, lt, slot⟩
    exact settled.elim (absurd reading) fun outside => outside k lt slot
  rw [computeCrc_of_bytes i configured built stays (State.arenaBytes_range length reads), State.computeOver,
    if_neg untouched]

/-- R180: the slot being filled is part of the range. -/
theorem computeCrc_of_live (configured : s.cfgDone = true) (built : s.crcTableValid = true)
    (stays : rangeLeaves inv addr len s.arenaSize = false)
    (written : ∀ k, k < len.toNat → s.written (rangeAddr inv addr k) = true) (reading : s.prodPhase = .read)
    (live : ∃ k, k < len.toNat ∧ s.inFilledSlot (rangeAddr inv addr k)) :
    computeCrc inv addr len i s =
      .next { s with crcResult := Config.draw 16 s.draws, draws := s.draws + 1 } := by
  have some_read : s.arenaBytes (rangeAddrs inv addr len) ≠ none := fun fails => by
    obtain ⟨_, mem, unwritten⟩ := (s.arenaBytes_eq_none _).1 fails
    obtain ⟨k, lt, rfl⟩ := mem_rangeAddrs.1 mem
    exact Bool.false_ne_true (unwritten.symm.trans (written k lt))
  obtain ⟨bytes, reads⟩ := Option.ne_none_iff_exists'.1 some_read
  rw [computeCrc_of_bytes i configured built stays reads, State.computeOver,
    if_pos (State.touchesFilling_range_iff.2 ⟨reading, live⟩)]

end Compute

/-- Settles O24: the settled compute, over the upward range. -/
theorem crcComputeForward : Obligations.CrcComputeForward :=
  fun _ addr len _ configured built fits length reads settled =>
    computeCrc_of_settled (inv := false) (.crcCompute addr len) configured built (rangeLeaves_forward_of_fits fits) length
      reads settled

/-- Settles O25: the settled compute, over the downward range. -/
theorem crcComputeBackward : Obligations.CrcComputeBackward :=
  fun _ addr len _ configured built fits length reads settled =>
    computeCrc_of_settled (inv := true) (.crcComputeInv addr len) configured built (rangeLeaves_backward_of_fits fits) length
      reads settled

/-- Settles O26, one fault after the other, each in both traversals. -/
theorem crcComputeFaults : Obligations.CrcComputeFaults := by
  intro s addr len
  refine ⟨fun unconfigured => ⟨?_, ?_⟩, fun configured unbuilt => ⟨?_, ?_⟩, fun configured built nonempty leaves => ?_,
    fun configured built nonempty leaves => ?_, fun configured built fits unwritten => ?_,
    fun configured built start stop unwritten => ?_⟩
  · exact computeCrc_of_unconfigured _ unconfigured
  · exact computeCrc_of_unconfigured _ unconfigured
  · exact computeCrc_of_unbuilt _ configured unbuilt
  · exact computeCrc_of_unbuilt _ configured unbuilt
  · exact computeCrc_of_leaves _ configured built (rangeLeaves_forward_iff.2 ⟨nonempty, leaves⟩)
  · exact computeCrc_of_leaves _ configured built (rangeLeaves_backward_iff.2 ⟨nonempty, leaves⟩)
  · exact computeCrc_of_unwritten _ configured built (rangeLeaves_forward_of_fits (.inr fits)) unwritten
  · exact computeCrc_of_unwritten _ configured built (rangeLeaves_backward_of_fits (.inr ⟨start, stop⟩)) unwritten

/-- Settles O27: in either traversal the value is the next draw. -/
theorem liveRangeGivesSomeResult : Obligations.LiveRangeGivesSomeResult := by
  refine fun s addr len configured built reading =>
    ⟨fun fits written live => ⟨Config.draw 16 s.draws, ?_⟩, fun start stop written live => ⟨Config.draw 16 s.draws, ?_⟩⟩
  · exact computeCrc_of_live _ configured built (rangeLeaves_forward_of_fits (.inr fits)) written reading live
  · exact computeCrc_of_live _ configured built (rangeLeaves_backward_of_fits (.inr ⟨start, stop⟩)) written reading live

/-- Settles O30: the k-th byte of the range is the packet's byte 14 - k, as the payload lists it. -/
theorem packetCrcIsTheInvertedRange : Obligations.PacketCrcIsTheInvertedRange := by
  intro s base pkt fits reads
  refine ⟨payload pkt, State.arenaBytes_range rfl fun k lt => ?_, rfl, rfl⟩
  have lt : k < 13 := lt
  have address : rangeAddr true (.ofNat 16 (base + 14)) k = base + (14 - k) := by
    simp only [rangeAddr, if_true, BitVec.toNat_ofNat]
    omega
  rw [address, reads ⟨14 - k, by omega⟩]
  interval_cases k <;> rfl

/-! ## The CRC step -/

theorem divStep_zero (poly : Half) : divStep poly 0 = 0 := rfl

theorem divByte_eq_iterate (poly c : Half) : divByte poly c = (divStep poly)^[8] c := rfl

theorem tableAt_tableOf (poly : Half) (i : Byte) : tableAt (tableOf poly) i = tableEntry poly i := by
  simp [tableAt, tableOf]

theorem tableEntry_zero (poly : Half) : tableEntry poly 0 = 0 :=
  (divByte_eq_iterate poly 0).trans (Function.iterate_fixed (divStep_zero poly) 8)

theorem crcRun_append (t : Vector Half 256) (seed : Half) (xs ys : List Byte) :
    crcRun t seed (xs ++ ys) = crcRun t (crcRun t seed xs) ys := List.foldl_append

/-- Feeding the register its own high byte shifts it out and divides nothing in. -/
theorem crcStep_own_high_byte (poly c : Half) : crcStep (tableOf poly) c (c.extractLsb' 8 8) = c <<< 8 := by
  rw [crcStep, BitVec.xor_self, tableAt_tableOf]
  exact (congrArg _ (tableEntry_zero poly)).trans BitVec.xor_zero

/-- The register's low byte is its high byte after one byte's shift. -/
theorem extractLsb'_shiftLeft_byte (c : Half) : (c <<< 8).extractLsb' 8 8 = c.extractLsb' 0 8 := by
  ext i h
  simp
  omega

theorem crcRun_own_bytes (poly c : Half) : crcRun (tableOf poly) c [c.extractLsb' 8 8, c.extractLsb' 0 8] = 0 :=
  calc crcStep (tableOf poly) (crcStep (tableOf poly) c (c.extractLsb' 8 8)) (c.extractLsb' 0 8)
    _ = crcStep (tableOf poly) (c <<< 8) ((c <<< 8).extractLsb' 8 8) := by
      rw [crcStep_own_high_byte, extractLsb'_shiftLeft_byte]
    _ = (c <<< 8) <<< 8 := crcStep_own_high_byte poly _
    _ = 0 := by
      rw [← BitVec.shiftLeft_add]
      exact BitVec.shiftLeft_eq_zero (Nat.le_refl 16)

/-- Settles O28: the two bytes of the CRC shift the register out; a right trailer is the CRC of its payload (R204). -/
theorem crcRoundTripIsZero : Obligations.CrcRoundTripIsZero := by
  have appended (poly seed : Half) (bytes : List Byte) (c : Half) (crc : c = crcRun (tableOf poly) seed bytes) :
      crcRun (tableOf poly) seed (bytes ++ [c.extractLsb' 8 8, c.extractLsb' 0 8]) = 0 := by
    rw [crcRun_append, ← crc, crcRun_own_bytes]
  refine ⟨appended, fun pkt right => ?_⟩
  have high : (packetTrailer pkt).extractLsb' 8 8 = pkt[1] :=
    (extractLsb'_append_byte pkt[1] pkt[0] 0).trans BitVec.extractLsb'_eq_self
  have low : (packetTrailer pkt).extractLsb' 0 8 = pkt[0] := extractLsb'_append_byte_zero pkt[1] pkt[0]
  rw [← high, ← low]
  exact appended Config.decPoly Config.decSeed (payload pkt) _ right

/-! ## The bitwise form -/

theorem bitwiseShift_eq_divStep (poly : Half) : bitwiseShift poly = divStep poly := by
  funext c
  rw [bitwiseShift, divStep, BitVec.msb_eq_getLsbD_last]

/-- The division step is linear: whether the polynomial goes in is the XOR of the two top bits. -/
theorem divStep_xor (poly a b : Half) : divStep poly (a ^^^ b) = divStep poly a ^^^ divStep poly b := by
  have distributes : (a ^^^ b) <<< 1 = (a <<< 1) ^^^ (b <<< 1) := BitVec.shiftLeft_xor_distrib a b 1
  rw [divStep, divStep, divStep, BitVec.msb_xor, distributes]
  cases a.msb <;> cases b.msb
  · rfl
  · exact BitVec.xor_assoc ..
  · simp only [Bool.bne_false, if_true, Bool.false_eq_true, if_false]
    ac_rfl
  · show (a <<< 1) ^^^ (b <<< 1) = ((a <<< 1) ^^^ poly) ^^^ ((b <<< 1) ^^^ poly)
    rw [BitVec.xor_comm (b <<< 1) poly, BitVec.xor_assoc, ← BitVec.xor_assoc poly poly, BitVec.xor_self,
      BitVec.zero_xor]

theorem iterate_divStep_xor (poly a b : Half) (k : Nat) :
    (divStep poly)^[k] (a ^^^ b) = (divStep poly)^[k] a ^^^ (divStep poly)^[k] b := by
  induction k generalizing a b with
  | zero => rfl
  | succ k ih => rw [Function.iterate_succ_apply, divStep_xor, ih]; rfl

/-- While the top bits are 0, division only shifts. -/
theorem iterate_divStep_of_lt (poly : Half) {c : Half} {k : Nat} (small : c.toNat * 2 ^ k < 2 ^ 16) :
    (divStep poly)^[k] c = c <<< k := by
  induction k with
  | zero => exact (BitVec.shiftLeft_zero c).symm
  | succ k ih =>
    rw [Nat.pow_succ, ← Nat.mul_assoc] at small
    have value : (c <<< k).toNat = c.toNat * 2 ^ k := by
      rw [BitVec.toNat_shiftLeft, Nat.shiftLeft_eq, Nat.mod_eq_of_lt (by omega)]
    have top : (c <<< k).msb = false := by
      rw [BitVec.msb_eq_false_iff_two_mul_lt, value]
      omega
    rw [Function.iterate_succ_apply', ih (by omega), divStep, top, BitVec.shiftLeft_add]
    rfl

/-- The register is its two bytes, each at its place. -/
theorem half_eq_bytes (crc : Half) :
    crc = (crc.extractLsb' 0 8).zeroExtend 16 ^^^ ((crc.extractLsb' 8 8).zeroExtend 16 <<< 8 : Half) := by
  ext i h
  by_cases low : i < 8
  · simp [low, BitVec.getLsbD_eq_getElem h]
  · have high : i - 8 < 8 := by omega
    simp [low, high, BitVec.getLsbD_eq_getElem h, Nat.add_sub_cancel' (Nat.le_of_not_lt low)]

/-- A byte that enters the register at the top meets the high byte there: together they are the table's index. -/
theorem xor_top_byte (crc : Half) (b : Byte) :
    crc ^^^ (b.zeroExtend 16 <<< 8 : Half) =
      (crc.extractLsb' 0 8).zeroExtend 16 ^^^ ((crc.extractLsb' 8 8 ^^^ b).zeroExtend 16 <<< 8 : Half) := by
  have widened : (crc.extractLsb' 8 8 ^^^ b).zeroExtend 16 = (crc.extractLsb' 8 8).zeroExtend 16 ^^^ b.zeroExtend 16 :=
    BitVec.setWidth_xor
  rw [widened, BitVec.shiftLeft_xor_distrib, ← BitVec.xor_assoc, ← half_eq_bytes]

theorem low_byte_shiftLeft (crc : Half) : ((crc.extractLsb' 0 8).zeroExtend 16 <<< 8 : Half) = crc <<< 8 := by
  ext i h
  have high : i - 8 < 8 := by omega
  simp [high, BitVec.getLsbD_eq_getElem (high.trans (by decide : 8 < 16))]

/-- `CrcStep` is eight division steps of the register that the byte has entered at the top. -/
theorem crcStep_eq_iterate (poly crc : Half) (b : Byte) :
    crcStep (tableOf poly) crc b = (divStep poly)^[8] (crc ^^^ (b.zeroExtend 16 <<< 8 : Half)) := by
  have small : ((crc.extractLsb' 0 8).zeroExtend 16 : Half).toNat * 2 ^ 8 < 2 ^ 16 := by
    rw [BitVec.toNat_setWidth_of_le (by decide)]
    exact toNat_mul_two_pow_lt _ (Nat.le_refl 16)
  rw [xor_top_byte, iterate_divStep_xor, iterate_divStep_of_lt poly small, low_byte_shiftLeft, crcStep,
    tableAt_tableOf]
  rfl

/-- Settles O29, by the step for each byte. -/
theorem tableCrcIsBitwiseCrc : Obligations.TableCrcIsBitwiseCrc := by
  intro poly seed bytes
  have step : crcStep (tableOf poly) =
      fun (crc : Half) (b : Byte) => Nat.iterate (bitwiseShift poly) 8 (crc ^^^ (b.zeroExtend 16 <<< 8 : Half)) := by
    funext crc b
    rw [crcStep_eq_iterate, bitwiseShift_eq_divStep]
  rw [crcRun, bitwiseCrc, step]

end Sys2Proof.Machine

/-! Proofs of the family 43_unpack_validate: the bits of an output field (O31, O32), one equation per outcome of DECODE (O33,
O34, O37), and one equation per outcome of the packet checks, from which what DECODE reports follows (O35, O36, O38, O39). -/

namespace Sys2Proof.Machine

/-! ## The unpacker -/

/-- One bit of R212's sum, at its place. -/
theorem placedBit_getLsbD {m : Nat} (b : Bool) (lt : m < 32) (k : Nat) :
    ((BitVec.ofBool b).zeroExtend 32 <<< m : Word).getLsbD k = (decide (k = m) && b) := by
  by_cases at_m : k = m
  · simp [at_m, lt]
  · by_cases below : k < m
    · simp [at_m, below]
    · have above : k - m ≠ 0 := by omega
      simp [at_m, above]

/-- Output bit k of R212's sum from bit m on. No bit is placed twice, so the sum carries nothing. -/
theorem fieldFrom_getLsbD (pkt : Packet) {m : Nat} {d : FieldDesc} (fits : m + d.length ≤ 32) (k : Nat) :
    (fieldFrom pkt m d).getLsbD k = (decide (m ≤ k) && ((d[k - m]?).map (packetBit pkt)).getD false) := by
  induction d generalizing m k with
  | nil => simp [fieldFrom]
  | cons q d ih =>
    rw [List.length_cons] at fits
    have lt : m < 32 := by omega
    have rest : m + 1 + d.length ≤ 32 := by omega
    have disjoint : ((BitVec.ofBool (packetBit pkt q)).zeroExtend 32 <<< m : Word) &&& fieldFrom pkt (m + 1) d = 0 := by
      refine BitVec.eq_of_getLsbD_eq fun i _ => ?_
      rw [BitVec.getLsbD_and, placedBit_getLsbD _ lt, ih rest]
      by_cases at_m : i = m <;> simp [at_m]
    rw [fieldFrom, BitVec.add_eq_or_of_and_eq_zero _ _ disjoint, BitVec.getLsbD_or, placedBit_getLsbD _ lt, ih rest]
    rcases Nat.lt_trichotomy k m with below | rfl | above
    · simp [Nat.ne_of_lt below, Nat.not_le_of_lt below, Nat.not_lt_of_lt below]
    · simp
    · obtain ⟨j, rfl⟩ : ∃ j, k = m + 1 + j := ⟨k - (m + 1), by omega⟩
      have place : m + 1 + j - m = j + 1 := by omega
      have past : m ≤ m + 1 + j := by omega
      have ne : m + 1 + j ≠ m := by omega
      simp [past, ne, place]

/-- A descriptor of a well-formed table has at most 32 bits (R210). -/
theorem width_le_of_wellFormed {c : Config} (wf : c.wellFormed = true) {d : FieldDesc} (mem : d ∈ c.fieldTable) :
    d.length ≤ 32 := by
  obtain ⟨_, each⟩ := Bool.and_eq_true_iff.1 wf
  have desc : FieldDesc.wellFormed d = true := List.all_eq_true.1 each d mem
  simp only [FieldDesc.wellFormed, Bool.and_eq_true, decide_eq_true_iff] at desc
  obtain ⟨⟨_, width⟩, _⟩ := desc
  exact width

theorem unpack_of_listed {table : List FieldDesc} (pkt : Packet) {j : Fin 38} {d : FieldDesc}
    (listed : table[j.val]? = some d) : (unpack table pkt)[j] = fieldFrom pkt 0 d := by
  simp [unpack, listed]

theorem unpack_of_unlisted {table : List FieldDesc} (pkt : Packet) {j : Fin 38} (unlisted : table[j.val]? = none) :
    (unpack table pkt)[j] = 0 := by
  simp [unpack, unlisted]

/-- Settles O31, for a field of the table and for one beyond it. -/
theorem unpackPlacesEveryBit : Obligations.UnpackPlacesEveryBit := by
  intro c pkt wf j m
  cases listed : c.fieldTable[j.val]? with
  | none => simp [unpack_of_unlisted pkt listed]
  | some d =>
    have width : 0 + d.length ≤ 32 := by
      simpa using width_le_of_wellFormed wf (List.mem_of_getElem? listed)
    rw [unpack_of_listed pkt listed, fieldFrom_getLsbD pkt width, Nat.sub_zero]
    exact Bool.true_and _

/-! ## The bit-order reversals -/

theorem rev3_getLsbD (x : BitVec 3) (k : Nat) : (rev3 x).getLsbD k = (decide (k < 3) && x.getLsbD (2 - k)) := by
  by_cases lt : k < 3
  · simp only [rev3, BitVec.getLsbD_append, BitVec.getLsbD_extractLsb']
    interval_cases k <;> simp
  · simp [lt, BitVec.getLsbD_of_ge _ _ (Nat.le_of_not_lt lt)]

/-- A three-bit descriptor that names a group's bits from the highest on is the group's reversal (R16). -/
theorem fieldFrom_eq_rev3 {pkt : Packet} {x : BitVec 3} {high mid low : BitPos} (bit2 : packetBit pkt high = x.getLsbD 2)
    (bit1 : packetBit pkt mid = x.getLsbD 1) (bit0 : packetBit pkt low = x.getLsbD 0) :
    fieldFrom pkt 0 [high, mid, low] = (rev3 x).zeroExtend 32 := by
  refine BitVec.eq_of_getLsbD_eq fun k lt => ?_
  have extended : ((rev3 x).zeroExtend 32).getLsbD k = (rev3 x).getLsbD k := by
    simp [lt]
  rw [fieldFrom_getLsbD pkt (by decide : 0 + 3 ≤ 32), extended, rev3_getLsbD]
  by_cases group : k < 3
  · interval_cases k <;> simp [bit2, bit1, bit0]
  · simp [group]

/-- Settles O32: the two descriptors of R217 and R218 name their groups from the highest bit on. -/
theorem defaultTableReversesBothGroups : Obligations.DefaultTableReversesBothGroups := by
  intro pkt
  refine ⟨(unpack_of_listed pkt (j := 2) rfl).trans (fieldFrom_eq_rev3 ?_ ?_ ?_),
    (unpack_of_listed pkt (j := 3) rfl).trans (fieldFrom_eq_rev3 ?_ ?_ ?_)⟩
  all_goals simp only [packetBit, BitVec.getLsbD_append, BitVec.getLsbD_extractLsb']
  all_goals simp

/-! ## The outcomes of DECODE (R220 to R224) -/

theorem encode_decode : encode .decode = 0x90000000 := by decide

theorem execDecode_of_unconfigured {s : State} (unconfigured : s.cfgDone = false) :
    execDecode s = raiseFault .notConfigured .decode s := by
  simp [execDecode, unconfigured]

theorem execDecode_of_protocol {s : State} (configured : s.cfgDone = true)
    (wrong : s.consState ≠ .holding ∨ s.decoded = true) : execDecode s = raiseFault .protocol .decode s := by
  simp [execDecode, configured, wrong]

section Held

variable {s : State}

theorem execDecode_of_size (configured : s.cfgDone = true) (holding : s.consState = .holding) (fresh : s.decoded = false)
    (size : s.p ≠ 15) : execDecode s = raiseFault .decodeSize .decode s := by
  have other : (s.p != Config.pDec) = true := bne_iff_ne.2 size
  simp [execDecode, configured, holding, fresh, other]

variable (configured : s.cfgDone = true) (holding : s.consState = .holding) (fresh : s.decoded = false) (size : s.p = 15)

include configured holding fresh size

theorem execDecode_of_disabled (disabled : s.decoderEnabled = false) : execDecode s = .next s.decodeDisabled := by
  simp [execDecode, configured, holding, fresh, size, disabled, Config.pDec]

/-- An enabled DECODE of a slot in use reads its 15 bytes first (R222). -/
theorem execDecode_of_enabled (enabled : s.decoderEnabled = true) (inUse : s.acqOffset.toNat + 15 ≤ s.arenaSize) :
    execDecode s =
      (s.arenaBytes (packetAddrs s.acqOffset.toNat)).elim (raiseFault .readUninit .decode s)
        fun bytes => .next (s.decodeBytes bytes) := by
  simp only [execDecode, configured, holding, fresh, size, enabled, Config.pDec, Nat.not_lt_of_le inUse]
  cases s.arenaBytes (packetAddrs s.acqOffset.toNat) <;> rfl

end Held

theorem State.decoderEnabled_iff (s : State) :
    s.decoderEnabled = true ↔ s.config.variant = .b ∨ s.acqValid = true := by
  unfold State.decoderEnabled
  cases s.config.variant <;> simp

theorem State.torn_iff (s : State) :
    s.torn = true ↔ s.acqDirty = true ∨ (s.prodPhase = .read ∧ s.wIdx = s.rIdx) := by
  simp [State.torn, State.filling]

theorem mem_packetAddrs {base a : Nat} : a ∈ packetAddrs base ↔ ∃ k, k < 15 ∧ base + k = a := by
  simp only [packetAddrs, List.mem_map, List.mem_range]

theorem State.arenaBytes_of_written (s : State) {as : List Nat} (written : ∀ a ∈ as, s.written a = true) :
    ∃ bytes, s.arenaBytes as = some bytes := by
  refine Option.ne_none_iff_exists'.1 fun fails => ?_
  obtain ⟨a, mem, unwritten⟩ := (s.arenaBytes_eq_none as).1 fails
  exact Bool.false_ne_true (unwritten.symm.trans (written a mem))

theorem packetOf_toList (pkt : Packet) : packetOf pkt.toList = pkt := by
  ext k lt
  simp [packetOf]

theorem State.HoldsPacket.arenaBytes {s : State} {pkt : Packet} (held : s.HoldsPacket pkt) :
    s.arenaBytes (packetAddrs s.acqOffset.toNat) = some pkt.toList := by
  refine State.arenaBytes_of_map (List.ext_getElem (by simp [packetAddrs]) fun k _ lt => ?_)
  rw [List.length_map, Vector.length_toList] at lt
  simpa [packetAddrs] using held.bytes ⟨k, lt⟩

theorem State.HoldsPacket.decodeBytes {s : State} {pkt : Packet} (held : s.HoldsPacket pkt) :
    s.decodeBytes pkt.toList = s.decodePacket pkt := by
  have intact : ¬ s.torn = true := by
    rw [State.torn_iff]
    rintro (dirty | ⟨reading, same⟩)
    · exact Bool.false_ne_true (held.clean.symm.trans dirty)
    · exact held.quiet.elim (absurd reading) (absurd same)
  rw [State.decodeBytes, if_neg intact, packetOf_toList]

/-- DECODE of an intact held packet decodes its own bytes. -/
theorem State.HoldsPacket.exec_decode {s : State} {pkt : Packet} (held : s.HoldsPacket pkt) :
    exec .decode s = .next (s.decodePacket pkt) :=
  calc execDecode s
    _ = _ := execDecode_of_enabled held.configured held.holding held.fresh held.size
      (s.decoderEnabled_iff.2 held.enabled) held.inUse
    _ = .next (s.decodePacket pkt) := by rw [held.arenaBytes, Option.elim_some, held.decodeBytes]

/-- A DECODE that does not fault clears the outputs, or gives those of the checks on some packet. -/
theorem exec_decode_outputs {s t : State} (h : exec .decode s = .next t) (runs : t.faulted = false) :
    (s.decoderEnabled = false ∧ t.outputs = .zero) ∨
      ∃ pkt, t.outputs = packetOutputs s.config.fieldTable pkt (checkPacket s.config.syncB pkt s.validator) := by
  rcases execDecode_cases h with ⟨_, rfl, _⟩ | ⟨_, _, _, _, ⟨disabled, rfl⟩ | ⟨_, bytes, _, rfl⟩⟩
  · exact absurd runs (by simp)
  · exact .inl ⟨disabled, rfl⟩
  · rcases s.decodeBytes_cases bytes with ⟨_, e⟩ | ⟨_, e⟩
    · exact .inr ⟨_, congrArg State.outputs e⟩
    · exact .inr ⟨_, congrArg State.outputs e⟩

/-- Settles O33, one check after the other. -/
theorem decodeEntryChecks : Obligations.DecodeEntryChecks := fun _ =>
  ⟨decodeWord_eq_ok_iff.2 encode_decode, execDecode_of_unconfigured, execDecode_of_protocol, execDecode_of_size⟩

/-- Settles O34: enabled, by the packet that is held; disabled, by the cleared outputs. -/
theorem disabledDecodeClearsTheOutputs : Obligations.DisabledDecodeClearsTheOutputs := by
  refine ⟨fun s pkt held _ => ⟨_, held.exec_decode, rfl, rfl, rfl⟩, ?_⟩
  intro s configured holding fresh size variant invalid
  have disabled : s.decoderEnabled = false := by
    simp [← Bool.not_eq_true, State.decoderEnabled_iff, variant, invalid]
  refine ⟨_, execDecode_of_disabled configured holding fresh size disabled, rfl, rfl, rfl, rfl, rfl, rfl, rfl, rfl,
    ?_, ?_⟩
  · simp [State.decodeDisabled, Outputs.zero]
  · simp [State.decodeDisabled, Outputs.zero]

/-- Settles O37: the packet of a torn DECODE is the next 15 draws. -/
theorem tornDecodeUsesSomePacket : Obligations.TornDecodeUsesSomePacket := by
  intro s configured holding fresh size enabled inUse
  have reads := execDecode_of_enabled configured holding fresh size (s.decoderEnabled_iff.2 enabled) inUse
  refine ⟨fun ⟨k, lt, unwritten⟩ => ?_, fun written torn => ⟨drawPacket s.draws, ?_⟩⟩
  · have fails : s.arenaBytes (packetAddrs s.acqOffset.toNat) = none :=
      (s.arenaBytes_eq_none _).2 ⟨_, mem_packetAddrs.2 ⟨k, lt, rfl⟩, unwritten⟩
    rw [fails] at reads
    exact reads
  · obtain ⟨bytes, bytes_read⟩ := s.arenaBytes_of_written fun a mem => by
      obtain ⟨k, lt, rfl⟩ := mem_packetAddrs.1 mem
      exact written k lt
    rw [bytes_read, Option.elim_some, State.decodeBytes, if_pos (s.torn_iff.2 torn)] at reads
    exact reads

/-! ## The packet's own fields, as numbers (R202, R204) -/

theorem toNat_append_byte {v : Nat} (x : BitVec v) (b : Byte) : (x ++ b).toNat = x.toNat * 2 ^ 8 + b.toNat := by
  rw [BitVec.toNat_append, ← Nat.shiftLeft_add_eq_or_of_lt b.isLt, Nat.shiftLeft_eq]

theorem packetTs_toNat (pkt : Packet) :
    (packetTs pkt).toNat = pkt[10].toNat + 2 ^ 8 * pkt[11].toNat + 2 ^ 16 * pkt[12].toNat + 2 ^ 24 * pkt[13].toNat +
      2 ^ 32 * pkt[14].toNat := by
  rw [packetTs, BitVec.zeroExtend, BitVec.toNat_setWidth_of_le (by decide)]
  simp only [toNat_append_byte]
  omega

theorem packetSeq_toNat (pkt : Packet) : (packetSeq pkt).toNat = pkt[3].toNat % 4 := BitVec.extractLsb'_toNat ..

theorem packetTrailer_toNat (pkt : Packet) : (packetTrailer pkt).toNat = pkt[0].toNat + 2 ^ 8 * pkt[1].toNat := by
  rw [packetTrailer, toNat_append_byte]
  omega

/-! ## The checks, one equation per outcome -/

/-- The sequence check finds a discontinuity (R228). -/
@[reducible] def Validator.outOfSequence (v : Validator) (pkt : Packet) : Prop :=
  v.seqHave = true ∧ pkt[3].toNat % 4 ≠ (v.lastSeq.toNat + 1) % 4

/-- The sync check finds a repeated byte (R230). -/
@[reducible] def Validator.repeatsSync (v : Validator) (pkt : Packet) : Prop := v.syncHave = true ∧ pkt[2] = v.lastSync

/-- The time check finds a time that does not rise (R232). -/
@[reducible] def Validator.timeNotRising (v : Validator) (pkt : Packet) : Prop :=
  v.lastTs ≠ 0 ∧ (packetTs pkt).toNat ≤ v.lastTs.toNat

/-- The sync byte is neither of the two valid ones (R230). -/
@[reducible] def invalidSync (syncB : Byte) (pkt : Packet) : Prop := pkt[2] ≠ 0x55 ∧ pkt[2] ≠ syncB

theorem checkCrc_of_match {pkt : Packet} {v : Validator} (right : packetCrc pkt = packetTrailer pkt) :
    checkCrc (packetCrc pkt) (packetTrailer pkt) v = { err := 0, fatal := false, validator := v } := if_pos right

theorem checkCrc_of_mismatch {pkt : Packet} {v : Validator} (wrong : packetCrc pkt ≠ packetTrailer pkt) :
    checkCrc (packetCrc pkt) (packetTrailer pkt) v = { err := errCrc, fatal := true, validator := v } := if_neg wrong

theorem checkSeq_of_fatal {seq : BitVec 2} {r : Verdict} (fatal : r.fatal = true) : checkSeq seq r = r := if_pos fatal

theorem checkSync_of_fatal {syncB sync : Byte} {r : Verdict} (fatal : r.fatal = true) : checkSync syncB sync r = r :=
  if_pos fatal

theorem checkTime_of_fatal {ts : BitVec 64} {r : Verdict} (fatal : r.fatal = true) : checkTime ts r = r := if_pos fatal

theorem seq_ne_succ_iff (pkt : Packet) (last : BitVec 2) :
    packetSeq pkt ≠ last + 1 ↔ pkt[3].toNat % 4 ≠ (last.toNat + 1) % 4 := by
  rw [← packetSeq_toNat, ne_eq, ← BitVec.toNat_inj, BitVec.toNat_add]
  rfl

/-- A check adds its bit to the code where it finds what it looks for. -/
theorem ite_or_eq {c p : Prop} [Decidable c] [Decidable p] (same : c ↔ p) (e bit : BitVec 8) :
    (if c then e ||| bit else e) = e ||| if p then bit else 0 := by
  rw [if_congr same rfl rfl]
  split
  · rfl
  · exact BitVec.or_zero.symm

theorem checkSeq_of_running {pkt : Packet} {e : BitVec 8} {v : Validator} :
    checkSeq (packetSeq pkt) { err := e, fatal := false, validator := v } =
      { err := e ||| if v.outOfSequence pkt then errSeq else 0, fatal := false
        validator := { v with lastSeq := packetSeq pkt, seqHave := true } } := by
  have found : (v.seqHave && packetSeq pkt != v.lastSeq + 1) = true ↔ v.outOfSequence pkt := by
    rw [Bool.and_eq_true, bne_iff_ne, seq_ne_succ_iff]
  rw [checkSeq, if_neg Bool.false_ne_true, ite_or_eq found]

theorem checkSync_of_invalid {syncB : Byte} {pkt : Packet} {e : BitVec 8} {v : Validator} (bad : invalidSync syncB pkt) :
    checkSync syncB (packetSync pkt) { err := e, fatal := false, validator := v } =
      { err := e ||| errSync, fatal := true, validator := v } := by
  have found : (packetSync pkt != Config.syncA && packetSync pkt != syncB) = true := by
    rw [Bool.and_eq_true, bne_iff_ne, bne_iff_ne]
    exact bad
  rw [checkSync, if_neg Bool.false_ne_true, if_pos found]

theorem checkSync_of_valid {syncB : Byte} {pkt : Packet} {e : BitVec 8} {v : Validator} (good : ¬ invalidSync syncB pkt) :
    checkSync syncB (packetSync pkt) { err := e, fatal := false, validator := v } =
      { err := e ||| if v.repeatsSync pkt then errRepeat else 0, fatal := false
        validator := { v with lastSync := pkt[2], syncHave := true } } := by
  have valid : ¬ (packetSync pkt != Config.syncA && packetSync pkt != syncB) = true := by
    rw [Bool.and_eq_true, bne_iff_ne, bne_iff_ne]
    exact good
  have found : (v.syncHave && packetSync pkt == v.lastSync) = true ↔ v.repeatsSync pkt := by
    rw [Bool.and_eq_true, beq_iff_eq]
    rfl
  rw [checkSync, if_neg Bool.false_ne_true, if_neg valid, ite_or_eq found]
  rfl

theorem checkTime_of_running {pkt : Packet} {e : BitVec 8} {v : Validator} :
    checkTime (packetTs pkt) { err := e, fatal := false, validator := v } =
      { err := e ||| if v.timeNotRising pkt then errTime else 0, fatal := false
        validator := { v with lastTs := if v.timeNotRising pkt then v.lastTs else packetTs pkt } } := by
  have found : (v.lastTs != 0 && packetTs pkt ≤ v.lastTs) = true ↔ v.timeNotRising pkt := by
    rw [Bool.and_eq_true, bne_iff_ne, decide_eq_true_iff, BitVec.le_def]
  by_cases late : v.timeNotRising pkt
  · rw [checkTime, if_neg Bool.false_ne_true, if_pos (found.2 late), if_pos late, if_pos late]
  · rw [checkTime, if_neg Bool.false_ne_true, if_neg (mt found.1 late), if_neg late, if_neg late,
      show e ||| 0 = e from BitVec.or_zero]

section Verdicts

variable {syncB : Byte} {pkt : Packet} {v : Validator}

/-- R226: no further check runs. -/
theorem checkPacket_of_badCrc (wrong : packetCrc pkt ≠ packetTrailer pkt) :
    checkPacket syncB pkt v = { err := errCrc, fatal := true, validator := v } := by
  rw [checkPacket, checkCrc_of_mismatch wrong, checkSeq_of_fatal rfl, checkSync_of_fatal rfl, checkTime_of_fatal rfl]

/-- R228, R230: the sequence check has run, the time check does not. -/
theorem checkPacket_of_badSync (right : packetCrc pkt = packetTrailer pkt) (bad : invalidSync syncB pkt) :
    checkPacket syncB pkt v =
      { err := (if v.outOfSequence pkt then errSeq else 0) ||| errSync, fatal := true
        validator := { v with lastSeq := packetSeq pkt, seqHave := true } } := by
  rw [checkPacket, checkCrc_of_match right, checkSeq_of_running, checkSync_of_invalid bad, checkTime_of_fatal rfl]
  simp

/-- R228 to R232: all four checks have run. -/
theorem checkPacket_of_passed (right : packetCrc pkt = packetTrailer pkt) (good : ¬ invalidSync syncB pkt) :
    checkPacket syncB pkt v =
      { err := (if v.outOfSequence pkt then errSeq else 0) ||| (if v.repeatsSync pkt then errRepeat else 0) |||
          if v.timeNotRising pkt then errTime else 0
        fatal := false
        validator :=
          { v with
            lastSeq := packetSeq pkt, seqHave := true, lastSync := pkt[2], syncHave := true
            lastTs := if v.timeNotRising pkt then v.lastTs else packetTs pkt } } := by
  rw [checkPacket, checkCrc_of_match right, checkSeq_of_running, checkSync_of_valid good, checkTime_of_running]
  simp

theorem checkPacket_fatal_iff :
    (checkPacket syncB pkt v).fatal = true ↔ packetCrc pkt ≠ packetTrailer pkt ∨ invalidSync syncB pkt := by
  by_cases right : packetCrc pkt = packetTrailer pkt
  · by_cases bad : invalidSync syncB pkt
    · rw [checkPacket_of_badSync right bad]
      exact iff_of_true rfl (.inr bad)
    · rw [checkPacket_of_passed right bad]
      exact iff_of_false Bool.false_ne_true (not_or.2 ⟨not_not.2 right, bad⟩)
  · rw [checkPacket_of_badCrc right]
    exact iff_of_true rfl (.inl right)

/-- The error codes of R242, and those among them that stop the checks. -/
theorem checkPacket_codes :
    (checkPacket syncB pkt v).err ∈ [0x00, 0x01, 0x02, 0x04, 0x06, 0x08, 0x0A, 0x10, 0x12, 0x14, 0x16] ∧
      ((checkPacket syncB pkt v).fatal = true ↔ (checkPacket syncB pkt v).err ∈ [0x01, 0x08, 0x0A]) := by
  by_cases right : packetCrc pkt = packetTrailer pkt
  · by_cases bad : invalidSync syncB pkt
    · rw [checkPacket_of_badSync right bad]
      dsimp only
      split <;> decide
    · rw [checkPacket_of_passed right bad]
      dsimp only
      split_ifs <;> decide
  · rw [checkPacket_of_badCrc right]
    dsimp only
    decide

/-- With no packet before it, a packet can only fail the CRC or the sync check. -/
theorem checkPacket_reset_err :
    (checkPacket syncB pkt .reset).err = 0x00 ∨ (checkPacket syncB pkt .reset).err = 0x01 ∨
      (checkPacket syncB pkt .reset).err = 0x08 := by
  have inSequence : ¬ Validator.reset.outOfSequence pkt := fun ⟨have_seq, _⟩ => Bool.false_ne_true have_seq
  have newSync : ¬ Validator.reset.repeatsSync pkt := fun ⟨have_sync, _⟩ => Bool.false_ne_true have_sync
  have rising : ¬ Validator.reset.timeNotRising pkt := fun ⟨have_ts, _⟩ => have_ts rfl
  by_cases right : packetCrc pkt = packetTrailer pkt
  · by_cases bad : invalidSync syncB pkt
    · exact .inr (.inr (by rw [checkPacket_of_badSync right bad, if_neg inSequence]; rfl))
    · exact .inl (by rw [checkPacket_of_passed right bad, if_neg inSequence, if_neg newSync, if_neg rising]; rfl)
  · exact .inr (.inl (by rw [checkPacket_of_badCrc right]; rfl))

end Verdicts

/-! ## What DECODE reports -/

theorem packetOutputs_trigger_iff {table : List FieldDesc} {pkt : Packet} {r : Verdict} :
    (packetOutputs table pkt r).trigger = false ↔ r.fatal = true := by
  rw [packetOutputs, Bool.not_eq_false']

/-- Settles O35: the fields are the packet's own, and only a fatal check clears the trigger (R234). -/
theorem decodeOutputsThePacket : Obligations.DecodeOutputsThePacket := fun s pkt held =>
  ⟨s.decodePacket pkt, held.exec_decode, rfl, packetTs_toNat pkt, packetSeq_toNat pkt, rfl, packetTrailer_toNat pkt, rfl,
    rfl, rfl, packetOutputs_trigger_iff.trans checkPacket_fatal_iff, rfl⟩

/-- Settles O36, by the outcome of the CRC and sync checks. -/
theorem decodeChecksThePacket : Obligations.DecodeChecksThePacket := by
  intro s pkt held
  refine ⟨fun wrong => ?_, fun right notA notB => ?_, fun right valid => ?_⟩ <;>
    refine ⟨s.decodePacket pkt, held.exec_decode, ?_⟩
  · rw [State.decodePacket_outputs, State.decodePacket_validator, checkPacket_of_badCrc wrong]
    exact ⟨rfl, rfl, rfl⟩
  · rw [State.decodePacket_outputs, State.decodePacket_validator, checkPacket_of_badSync right ⟨notA, notB⟩]
    refine ⟨rfl, ?_, rfl⟩
    dsimp only [packetOutputs]
    split <;> rfl
  · have good : ¬ invalidSync s.config.syncB pkt := fun ⟨notA, notB⟩ => valid.elim notA notB
    rw [State.decodePacket_outputs, State.decodePacket_validator, checkPacket_of_passed right good]
    exact ⟨rfl, rfl, rfl⟩

/-- Settles O38: the codes of the checks, on whatever packet DECODE took. -/
theorem reachableErrorCodes : Obligations.ReachableErrorCodes := by
  intro s t decodes _ runs enabled
  rcases exec_decode_outputs decodes runs with ⟨disabled, _⟩ | ⟨pkt, outputs⟩
  · exact absurd (disabled.symm.trans (s.decoderEnabled_iff.2 enabled)) Bool.false_ne_true
  · rw [outputs, packetOutputs_trigger_iff]
    exact checkPacket_codes

/-- Format Z of R98, with its reserved field as a number. -/
theorem decodeZ_eq_ite (w : Word) (i : Instr) :
    decodeZ w i = if w.toNat % 2 ^ 28 = 0 then .ok i else .error .reservedBits := by
  refine if_congr ((extractLsb'_eq_zero_iff w 0 28).trans ?_) rfl rfl
  rw [Nat.pow_zero, Nat.div_one]

/-- Settles O39: VRESET looks at nothing, and the next DECODE starts from the reset validator. -/
theorem vresetMakesTheNextPacketFirst : Obligations.VresetMakesTheNextPacketFirst := by
  refine ⟨fun w opcode => ?_, fun s => ⟨_, rfl, rfl, fun u decodes _ runs => ?_⟩⟩
  · rw [decodeWord, opcodeField_toNat, opcode]
    exact decodeZ_eq_ite w .vreset
  · rcases exec_decode_outputs decodes runs with ⟨_, cleared⟩ | ⟨pkt, outputs⟩
    · exact .inl (congrArg Outputs.err cleared)
    · rw [outputs]
      exact checkPacket_reset_err

end Sys2Proof.Machine

/-! Proofs of the family 60_exceptions: fault entry is the only way into the fault state (O11), and a faulted block
keeps every register until the reset line (O10). -/

namespace Sys2Proof.Machine

/-! ## Fault entry -/

/-- The fault codes start at 1 (R251). -/
theorem FaultCode.number_ne_zero (code : FaultCode) : code.number ≠ 0 := by
  cases code <;> decide

/-- A compute raises its fault or leaves `FAULTED` alone, as either of the two commands that run it. -/
theorem computeCrc_takeFault_or_faulted {inv : Bool} {addr : Half} {len : BitVec 11} {i : Instr} {s t : State}
    (h : computeCrc inv addr len i s = .next t) :
    (∃ code, t = s.takeFault code (encode i)) ∨ t.faulted = s.faulted := by
  rcases computeCrc_cases h with ⟨code, raised, _⟩ | ⟨_, _, _, bytes, _, rfl⟩
  · exact .inl ⟨code, raised⟩
  · rcases s.computeOver_cases (rangeAddrs inv addr len) bytes with ⟨_, e⟩ | ⟨_, e⟩ <;> rw [e] <;> exact .inr rfl

/-- A command writes `FAULTED` by fault entry only, and then nothing besides (R255): no command does part of its work
before it faults. -/
theorem exec_takeFault_or_faulted {i : Instr} {s t : State} (h : exec i s = .next t) :
    (∃ code, t = s.takeFault code (encode i)) ∨ t.faulted = s.faulted := by
  cases i with
  | nop => cases h; exact .inr rfl
  | cfg n p =>
    rcases execCfg_cases h with ⟨_, raised⟩ | ⟨_, _, _, raised⟩ | ⟨_, _, _, rfl⟩
    · exact .inl ⟨_, raised⟩
    · exact .inl ⟨_, raised⟩
    · exact .inr rfl
  | start =>
    rcases execStart_cases h with ⟨_, raised⟩ | ⟨_, _, rfl⟩ | ⟨_, _, rfl⟩
    · exact .inl ⟨_, raised⟩
    · exact .inr rfl
    · exact .inr rfl
  | stop => cases h; exact .inr rfl
  | acquire =>
    rcases execAcquire_cases h with ⟨_, raised⟩ | ⟨_, _, raised⟩ | ⟨_, _, _, ⟨_, rfl⟩ | ⟨_, rfl⟩⟩
    · exact .inl ⟨_, raised⟩
    · exact .inl ⟨_, raised⟩
    · exact .inr rfl
    · exact .inr rfl
  | release =>
    rcases execRelease_cases h with ⟨_, raised⟩ | ⟨_, _, raised⟩ | ⟨_, _, _, rfl⟩
    · exact .inl ⟨_, raised⟩
    · exact .inl ⟨_, raised⟩
    · rcases s.releaseVariant_cases with ⟨e, _⟩ | ⟨e, _⟩ <;> rw [e] <;> exact .inr rfl
  | crcBuild poly => cases h; exact .inr rfl
  | crcSeed seed => cases h; exact .inr rfl
  | crcCompute addr len => exact computeCrc_takeFault_or_faulted h
  | crcComputeInv addr len => exact computeCrc_takeFault_or_faulted h
  | decode =>
    rcases execDecode_cases h with ⟨code, raised, _⟩ | ⟨_, _, _, _, ⟨_, rfl⟩ | ⟨_, bytes, _, rfl⟩⟩
    · exact .inl ⟨code, raised⟩
    · exact .inr rfl
    · rcases s.decodeBytes_cases bytes with ⟨_, e⟩ | ⟨_, e⟩ <;> rw [e] <;> exact .inr rfl
  | vreset => cases h; exact .inr rfl

/-- Settles O11: the block became faulted, so the command's next state is fault entry. -/
theorem faultsArePrecise : Obligations.FaultsArePrecise := by
  intro i s t h running faulted
  rcases exec_takeFault_or_faulted h with ⟨code, rfl⟩ | kept
  · exact ⟨rfl, code.number_ne_zero, rfl⟩
  · exact nomatch faulted.symm.trans (kept.trans running)

/-! ## The fault lasts -/

/-- Besides the reset line, a turn of a faulted block writes no register: a read-port access touches bookkeeping only,
and every other turn passes by (R111, R259). -/
theorem takeTurn_registers_of_faulted {u : Turn} {s t : State} (faulted : s.faulted = true) (reset : u ≠ .reset)
    (h : takeTurn u s = .next t) : t.registers = s.registers := by
  cases u with
  | read a =>
    obtain ⟨v, d, e⟩ := readStep_eq a s
    cases e.symm.trans h
    rfl
  | reset => exact absurd rfl reset
  | _ =>
    rw [takeTurn_of_faulted faulted (by nofun) reset] at h
    cases h
    rfl

/-- What holds along a run without reset from a faulted block `s`: its registers, and no reset offered. -/
structure State.FaultLasts (s t : State) : Prop where
  registers : t.registers = s.registers
  noReset : ∀ u ∈ t.pending, u ≠ Turn.reset

/-- `FAULTED` is one of the registers kept. -/
theorem State.FaultLasts.faulted {s t : State} (lasts : s.FaultLasts t) : t.faulted = s.faulted := by
  rw [← t.registers_faulted, lasts.registers, s.registers_faulted]

theorem step_faultLasts {s t u : State} (faulted : s.faulted = true) (lasts : s.FaultLasts t) (h : step t = .next u) :
    s.FaultLasts u := by
  rcases step_cases h with ⟨_, rfl⟩ | ⟨turn, rest, offered, taken⟩
  · exact lasts
  · have noReset := lasts.noReset
    rw [offered, List.forall_mem_cons] at noReset
    obtain ⟨quiet, noReset⟩ := noReset
    have kept :=
      takeTurn_registers_of_faulted (s := { t with pending := rest }) (lasts.faulted.trans faulted) quiet taken
    refine ⟨kept.trans lasts.registers, ?_⟩
    rwa [takeTurn_pending taken]

/-- Settles O10: that the registers are those of the fault is an invariant of every step without reset; the reset line
writes the record's reset values. -/
theorem faultLastsUntilReset : Obligations.FaultLastsUntilReset := by
  refine ⟨fun k s t faulted noReset h => ?_, fun s rest offered => ?_⟩
  · have lasts := run_keeps (P := s.FaultLasts) (fun _ _ => step_faultLasts faulted) ⟨rfl, noReset⟩ h
    exact lasts.registers
  · exact ⟨_, step_of_pending offered, rfl, rfl, rfl⟩

end Sys2Proof.Machine

/-! Proofs of the family 70_reset_and_hazards: the reset line leaves every register at its reset value (O12) and a state
with the invariant of every run (O14), and after reset only a command word starts anything (O13). -/

namespace Sys2Proof.Machine

/-! ## The reset line -/

/-- The reset line gives every run its invariant, whatever the state was: both byte spaces are empty and no CRC table is
built (R280). -/
theorem State.resetLine_inv (s : State) : s.resetLine.Inv where
  memory := ⟨rfl, rfl⟩
  ring := s.resetLine_ringInv
  reserved := s.resetLine_reservedZero
  table := nofun

/-- The reset state is one that the reset line leaves. -/
theorem State.reset_resetLine : State.reset.resetLine = State.reset := rfl

/-- Settles O14: the reset line leaves the reset state as it is. -/
theorem resetHasTheInvariant : Obligations.ResetHasTheInvariant := by
  rw [Obligations.ResetHasTheInvariant, ← State.reset_resetLine]
  exact State.reset.resetLine_inv

/-- Settles O12: the registers are those of `State.resetLine`; the read port finds the CRC table unbuilt and the
decoder's table, which no register holds, as ever. -/
theorem resetLineSetsEveryRegister : Obligations.ResetLineSetsEveryRegister := by
  intro s rest offered
  obtain ⟨_, unbuilt, _, _, _, _, _, _, decoder⟩ := registerMap.2 ({ s with pending := rest } : State).resetLine
  have fields : ∀ j : Fin 38, Outputs.zero.field[j] = 0 := fun _ => Vector.getElem_replicate _
  have raws : ∀ k : Fin 15, Outputs.zero.raw[k] = 0 := fun _ => Vector.getElem_replicate _
  exact ⟨_, step_of_pending offered, rfl, rfl, rfl, rfl, rfl, rfl, fun _ => rfl, fun _ => rfl, rfl, rfl, rfl, rfl, rfl, rfl,
    rfl, rfl, rfl, rfl, rfl, rfl, rfl, unbuilt rfl, decoder, rfl, rfl, rfl, rfl, rfl, rfl, rfl, rfl, fields, raws, rfl, rfl,
    rfl, rfl, rfl⟩

/-! ## Before the first command -/

/-- A stopped producer takes no input, QUIET included (R141). -/
theorem serialStep_of_stopped (e : SerialInput) {s : State} (stopped : s.prodPhase = .stopped) :
    serialStep e s = .next s := by
  rw [serialStep, stopped, ite_self]

/-- With the producer stopped and no ACQUIRE waiting, only a command word and the reset line write registers: no other
agent has a step enabled, and the reader writes none (R66, R124, R142). -/
theorem takeTurn_registers_of_stopped {u : Turn} {s t : State} (stopped : s.prodPhase = .stopped)
    (awake : s.consState ≠ .waiting) (command : ∀ w, u ≠ .command w) (reset : u ≠ .reset)
    (h : takeTurn u s = .next t) : t.registers = s.registers := by
  cases u with
  | command w => exact absurd rfl (command w)
  | wake =>
    have disabled : ¬ s.wakeEnabled = true := fun enabled => awake (s.wakeEnabled_iff.1 enabled).1
    cases (wakeStep_of_disabled disabled).symm.trans h
    rfl
  | produce =>
    cases (produceStep_of_awaitsQuiet (.inr (.inr stopped))).symm.trans h
    rfl
  | serial e =>
    cases (serialStep_of_stopped e stopped).symm.trans h
    rfl
  | read a =>
    obtain ⟨v, d, e⟩ := readStep_eq a s
    cases e.symm.trans h
    rfl
  | reset => exact absurd rfl reset

/-- The reset line looks at nothing but the parameters, and after a reset the other turns find a stopped producer and an
idle consumer (R283). -/
theorem takeTurn_registers_of_reset {u : Turn} {s t : State} (fresh : s.registers = State.reset.registers)
    (command : ∀ w, u ≠ .command w) (h : takeTurn u s = .next t) : t.registers = State.reset.registers := by
  by_cases reset : u = .reset
  · have config : s.config = .default := congrArg State.config fresh
    subst reset
    cases h
    simp only [State.resetLine, State.registers, State.reset, config]
  · have stopped : s.prodPhase = .stopped := congrArg State.prodPhase fresh
    have idle : s.consState = .idle := congrArg State.consState fresh
    exact (takeTurn_registers_of_stopped stopped (by simp [idle]) command reset h).trans fresh

/-- The registers hold the values the reset line gives them, with the default parameters, and no command word is
offered. -/
structure State.AtReset (s : State) : Prop where
  registers : s.registers = State.reset.registers
  noCommand : ∀ u ∈ s.pending, ∀ w, u ≠ Turn.command w

theorem step_atReset {s t : State} (hs : s.AtReset) (h : step s = .next t) : t.AtReset := by
  obtain ⟨registers, noCommand⟩ := hs
  rcases step_cases h with ⟨_, rfl⟩ | ⟨u, rest, offered, taken⟩
  · exact ⟨registers, noCommand⟩
  · rw [offered, List.forall_mem_cons] at noCommand
    obtain ⟨notCommand, noCommand⟩ := noCommand
    refine ⟨takeTurn_registers_of_reset (s := { s with pending := rest }) registers notCommand taken, ?_⟩
    rwa [takeTurn_pending taken]

/-- Settles O13: that the registers are those of reset is an invariant of every step without a command word. -/
theorem nothingHappensBeforeACommand : Obligations.NothingHappensBeforeACommand := by
  intro k turns t noCommand h
  have atReset := run_keeps (P := State.AtReset) (fun _ _ => step_atReset) ⟨rfl, noCommand⟩ h
  exact atReset.registers

end Sys2Proof.Machine
